-- ==== Sys2Proof/Word.lean ====
section
/-! DEFINITION. The word types of LEDTX: `u8` and the 40-bit command word (00_scope.md section 5.1, R50). -/

namespace Sys2Proof

/-- `u8`: an 8-bit channel intensity, index, brightness or frame-buffer byte. Bit 7 is the most significant. -/
abbrev Byte := BitVec 8

/-- `cmd_word[39:0]`, one command (R50). -/
abbrev CmdWord := BitVec 40

end Sys2Proof
end

