-- ==== Sys2Proof/Syntax.lean ====
section
/-! DEFINITION. The command set of LEDTX: one constructor of `Instr` per row of spec/opcode_table.json (R51), and the
assembler's lines, pseudo-operations among them (R59, R60). -/

namespace Sys2Proof

/-- The five commands (R51). Fields a command ignores (R52) are no operands. Every term is well formed: each operand
is an 8-bit vector (R50, R54). -/
inductive Instr where
  /-- `INIT`, `0x01` (R80). -/
  | init
  /-- `SETPIXEL idx, r, g, b`, `0x02` (R82): operands in the order index, red, green, blue. -/
  | setpixel (idx r g b : Byte)
  /-- `CLEAR`, `0x03` (R81). -/
  | clear
  /-- `TRANSMIT`, `0x04` (R90). -/
  | transmit
  /-- `CLEARSHOW`, `0x05` (R91). -/
  | clearshow
  deriving DecidableEq, Repr

/-- One line of the assembler (R59) with its operands as the numbers written there, or a pseudo-operation (R60). -/
inductive AsmLine where
  | init
  | setpixel (idx r g b : Nat)
  | clear
  | transmit
  | clearshow
  /-- `SETCOLOR idx, cidx, bright`: resolve on the host, then SETPIXEL (R60, R75). -/
  | setcolor (idx cidx bright : Nat)
  /-- `OFF idx`: `SETPIXEL idx, 0, 0, 0` (R60). -/
  | off (idx : Nat)
  /-- `CLEARSHOW` "where a host lacks the opcode": CLEAR then TRANSMIT (R60). -/
  | clearThenTransmit
  deriving DecidableEq, Repr

end Sys2Proof
end

