-- ==== Sys2Proof/Decode.lean ====
section
/-! DEFINITION. The command encoding (30_encoding.md sections 1 to 4): the five fields of a word (R50), the opcode map
(R51), the decoder, total on 40-bit words, and the encoder. -/

namespace Sys2Proof

/-- `OP`, bits 39:32 (R50). -/
def fieldOp (w : CmdWord) : Byte := w.extractLsb' 32 8

/-- `IDX`, bits 31:24. -/
def fieldIdx (w : CmdWord) : Byte := w.extractLsb' 24 8

/-- `R`, bits 23:16. -/
def fieldR (w : CmdWord) : Byte := w.extractLsb' 16 8

/-- `G`, bits 15:8. -/
def fieldG (w : CmdWord) : Byte := w.extractLsb' 8 8

/-- `B`, bits 7:0. -/
def fieldB (w : CmdWord) : Byte := w.extractLsb' 0 8

/-- Why a word is no instruction. -/
inductive DecodeReject where
  /-- `OP` is `0x00` or `0x06` to `0xFF` (R53). The machine runs such a word as a no-op: `runWord` in
  Machine/Tick.lean. -/
  | reservedOpcode (op : Byte)
  deriving DecidableEq, Repr

/-- The command a word stands for (R51, R52, R54): `OP` selects, INIT, CLEAR, TRANSMIT and CLEARSHOW ignore the other
fields. -/
def decode (w : CmdWord) : Except DecodeReject Instr :=
  if fieldOp w = 0x01 then .ok .init
  else if fieldOp w = 0x02 then .ok (.setpixel (fieldIdx w) (fieldR w) (fieldG w) (fieldB w))
  else if fieldOp w = 0x03 then .ok .clear
  else if fieldOp w = 0x04 then .ok .transmit
  else if fieldOp w = 0x05 then .ok .clearshow
  else .error (.reservedOpcode (fieldOp w))

/-- `OP ++ IDX ++ R ++ G ++ B` (R50). -/
def packWord (op idx r g b : Byte) : CmdWord := op ++ idx ++ r ++ g ++ b

/-- The opcode of a command (R51). -/
def Instr.opcode : Instr → Byte
  | .init => 0x01
  | .setpixel _ _ _ _ => 0x02
  | .clear => 0x03
  | .transmit => 0x04
  | .clearshow => 0x05

/-- The word of a command; "an assembler writes" the ignored fields "as zero" (R52). -/
def encode : Instr → CmdWord
  | .init => packWord 0x01 0 0 0 0
  | .setpixel idx r g b => packWord 0x02 idx r g b
  | .clear => packWord 0x03 0 0 0 0
  | .transmit => packWord 0x04 0 0 0 0
  | .clearshow => packWord 0x05 0 0 0 0

/-- One row of the opcode map as match and mask over the 40-bit word (R51). -/
structure OpcodeRow where
  mnemonic : String
  pattern : CmdWord
  mask : CmdWord
  deriving DecidableEq, Repr

/-- The word is one of the row's: `w AND mask = match`. -/
def OpcodeRow.covers (row : OpcodeRow) (w : CmdWord) : Bool := w &&& row.mask == row.pattern

/-- The opcode map as R51 lists it. -/
def opcodeTable : List OpcodeRow :=
  [ { mnemonic := "INIT", pattern := 0x0100000000, mask := 0xFF00000000 },
    { mnemonic := "SETPIXEL", pattern := 0x0200000000, mask := 0xFF00000000 },
    { mnemonic := "CLEAR", pattern := 0x0300000000, mask := 0xFF00000000 },
    { mnemonic := "TRANSMIT", pattern := 0x0400000000, mask := 0xFF00000000 },
    { mnemonic := "CLEARSHOW", pattern := 0x0500000000, mask := 0xFF00000000 } ]

/-- The upper-case mnemonic of a command (R51, R59). -/
def Instr.mnemonic : Instr → String
  | .init => "INIT"
  | .setpixel _ _ _ _ => "SETPIXEL"
  | .clear => "CLEAR"
  | .transmit => "TRANSMIT"
  | .clearshow => "CLEARSHOW"

/-- The command as one assembler line, decimal operands in the order index, red, green, blue (R59). -/
def Instr.asmText : Instr → String
  | .setpixel idx r g b =>
    "SETPIXEL " ++ toString idx.toNat ++ ", " ++ toString r.toNat ++ ", " ++ toString g.toNat ++ ", " ++ toString b.toNat
  | i => i.mnemonic

/-- The bits of a word that the command it decodes to reads: all of SETPIXEL's, `OP` alone for the others (R52). -/
def Instr.usedMask : Instr → CmdWord
  | .setpixel _ _ _ _ => 0xFFFFFFFFFF
  | _ => 0xFF00000000

/-- The decoder on a word numbered as spec/opcode_table.json numbers its rows. The command word is ONE 40-bit word, so
bit 0 of `w` is bit 0 of `cmd_word` and `OP` is bits 39:32 (DEDUCED, log entry 21). -/
def decodeTableWord (nbits w : Nat) : Option Instr :=
  match decode (BitVec.ofNat 40 (w % 2 ^ nbits)) with
  | .ok i => some i
  | .error _ => none

end Sys2Proof
end

