-- ==== Sys2Proof/Config.lean ====
section
/-! DEFINITION. What an implementation of LEDTX fixes: the parameter record of 00_scope.md section 4, the reference
record REF20 of R9, and the one free value of the model (the frame buffer's bytes after reset, R20). -/

namespace Sys2Proof

/-- A Pixel, "an ordered triple of 8-bit channel intensities (red, green, blue)" (00_scope.md section 6). -/
structure Pixel where
  r : Byte
  g : Byte
  b : Byte
  deriving DecidableEq, Repr

/-- The off pixel `(0, 0, 0)`. -/
def Pixel.off : Pixel := { r := 0, g := 0, b := 0 }

/-- `PALETTE` (R8, R71): entries 1 to 7 in the order of their names. Entry 0 is `(0, 0, 0)` by R8 and R72, so it is
no field. That the order of the names is the index order is the spec's decision D22. -/
structure Palette where
  red : Pixel
  green : Pixel
  blue : Pixel
  yellow : Pixel
  cyan : Pixel
  magenta : Pixel
  white : Pixel
  deriving DecidableEq, Repr

/-- The parameter record (R4 to R8, R103): "compile-time, not runtime" constants. `tolPeriodNs` and `fClk` are natural
numbers (DESIGN CHOICE, log entry 17). `outPin`, `palette` and `defaultBrightness` have no effect on the block. -/
structure Params where
  /-- `LED_COUNT`, written `N` (R4). -/
  ledCount : Nat
  /-- `OUT_PIN`, an opaque identity (R7). -/
  outPin : Nat
  /-- `F_CLK`, hertz (R6). -/
  fClk : Nat
  /-- `T0H`, ticks HIGH of a "0". -/
  t0h : Nat
  /-- `T1H`, ticks HIGH of a "1". -/
  t1h : Nat
  /-- `TBIT`, ticks of the bit period. -/
  tBit : Nat
  /-- `TLATCH`, ticks of the latch delay. -/
  tLatch : Nat
  /-- `TOL_PERIOD_NS`, allowed deviation of the bit period. -/
  tolPeriodNs : Nat
  /-- `TLEAD`, ticks LOW between acceptance and the first rising edge (R103). -/
  tLead : Nat
  /-- `PALETTE` of the external resolver (R8). -/
  palette : Palette
  /-- `DEFAULT_BRIGHTNESS`, read by no rule (R8). -/
  defaultBrightness : Byte
  deriving DecidableEq, Repr

namespace Config

/-- `PALETTE_REF` (R76), base intensity 100; evidence only. -/
def paletteRef : Palette where
  red := { r := 100, g := 0, b := 0 }
  green := { r := 0, g := 100, b := 0 }
  blue := { r := 0, g := 0, b := 100 }
  yellow := { r := 100, g := 100, b := 0 }
  cyan := { r := 0, g := 100, b := 100 }
  magenta := { r := 100, g := 0, b := 100 }
  white := { r := 100, g := 100, b := 100 }

/-- `REF20` (R9), with N = 3 (R4). `outPin` and `defaultBrightness` have no value in the spec and are read by nothing
(DESIGN CHOICE, log entry 2). -/
def ref20 : Params where
  ledCount := 3
  outPin := 0
  fClk := 20000000
  t0h := 8
  t1h := 16
  tBit := 25
  tLatch := 6000
  tolPeriodNs := 0
  tLead := 0
  palette := paletteRef
  defaultBrightness := 32

/-- FREE VALUE (R20, I8; log entry 3): what byte `address` of `FB` holds after the reset number `epoch` until it is
written. It has no body, so a claim holds whatever the bytes are, and after two resets they need not agree. -/
opaque unspecifiedByte : (epoch address : Nat) → Byte

end Config

end Sys2Proof
end

