-- ==== Sys2Proof/Machine/State.lean ====
section
/-! DEFINITION. The state of LEDTX (10_state.md section 1), the moves of its host and environment as plain data
(R22 to R24, R132), the reasons a step stops, and the state after reset (R20, R140). -/

namespace Sys2Proof.Machine

/-- The operating modes of the sequencer (R13, R128). -/
inductive Mode where
  /-- No transmission: commands are accepted. -/
  | idle
  /-- TRANSMIT accepted, first rising edge not yet produced. -/
  | lead
  /-- Symbols are being produced. -/
  | send
  /-- The latch delay is running. -/
  | latch
  deriving DecidableEq, Repr

/-- What the host and the environment do in one tick (R22, R23, R24, R132). Log entry 4. -/
inductive Move where
  /-- `cmd_valid = 0`: nothing is presented. -/
  | wait
  /-- `cmd_valid = 1` with this word in this one tick; afterwards it is withdrawn or changed, accepted or not (R24). -/
  | offer (w : CmdWord)
  /-- `cmd_valid = 1` with this word from this tick on until it is accepted (R22, R25). -/
  | present (w : CmdWord)
  /-- `RST = 1` in this tick; a word presented in it is not executed (R127, log entry 9). -/
  | assertRst (presented : Option CmdWord)
  /-- The host takes an interrupt in this tick and presents nothing (R123). -/
  | takeInterrupt
  /-- `CLK` gives no tick where one is due (R132 O1). -/
  | stallClock
  /-- Something other than the command port stores to `FB` (R132 O3). -/
  | writeFb (a : Nat) (v : Byte)
  deriving DecidableEq, Repr

/-- The bytes of `FB` written since the last reset, by rising address. An unlisted location holds no written value:
it is still the unspecified byte that reset left (R20, `State.fbByte`). -/
abbrev Memory := List Host.Cell

/-- The canonical form: addresses strictly rising, each below `size`. An unlisted location reads as no written value,
so no entry equals what an unlisted one reads as. -/
abbrev Memory.wf (m : Memory) (size : Nat) : Prop :=
  m.Pairwise (fun c d => c.1 < d.1) ∧ ∀ c ∈ m, c.1 < size

/-- The state. `params`, `env` and `epoch` are the model's own fields (log entries 1, 4, 3); `frames` is the ghost
observation of R19; the rest is the spec's state (10_state.md section 1). -/
structure State where
  /-- The parameter record (R4 to R8), written by no step. -/
  params : Params
  /-- `FB` (R11). -/
  fb : Memory
  /-- `DOUT`, the level driven during the tick that starts in this state (R104). -/
  dout : Bool
  /-- `MODE` (R13, R15). -/
  mode : Mode
  /-- `P`, the byte being sent (R13). -/
  p : Nat
  /-- `K`, completed bits of that byte (R13). -/
  k : Fin 8
  /-- `T`, ticks completed in the bit period, latch delay or lead-in (R13). -/
  t : Nat
  /-- `SR`, the shift register (R14). -/
  sr : Byte
  /-- `EXCL`, preemption is suspended (R16). -/
  excl : Bool
  /-- `FRAMES`, the frames completed so far (R19). -/
  frames : List (List Byte)
  /-- How many resets have happened: selects the unspecified bytes (R20). -/
  epoch : Nat
  /-- What the host and the environment will do, the next tick's move first; after the list, nothing is presented. -/
  env : List Move
  deriving DecidableEq, Repr

/-- What stops the machine with a fault. The block itself has none (R25, R120). -/
inductive Fault where
  /-- Raised by `withByte` (Machine/Ops.lean) when the sequencer loads a location `>= 3N`, which does not exist (R30,
  R35). Safe: the machine stops. No step from a state that meets the invariant of R21 reaches it (log entry 23). -/
  | noSuchLocation (a : Nat)
  deriving DecidableEq, Repr

/-- What the model gives no meaning to (R25, R132). -/
inductive Refusal where
  /-- Raised by an arm of `exec` whose instruction has no meaning yet. Safe. No arm does. -/
  | notModelled (mnemonic : String)
  /-- Raised by every step and every meaning when the parameter record is not valid (R6). Safe. -/
  | invalidParameters
  /-- Raised by `tick` when the clock stalls in a transmission (R132 O1). Safe. -/
  | clockStalled
  /-- Raised by `tick` when the host takes an interrupt while `EXCL = 1` (R132 O2). Safe. -/
  | exclusionIgnored
  /-- Raised by `tick` when anything but the command port stores to `FB` (R40, R132 O3). Safe. -/
  | foreignWrite
  deriving DecidableEq, Repr

/-- What a meaning and a step answer. -/
abbrev Result := Host.Outcome State Fault Refusal

/-- The state after reset of the instance with record `c` (R20, R140), no reset before it, nothing presented. -/
def State.resetWith (c : Params) : State where
  params := c
  fb := []
  dout := false
  mode := .idle
  p := 0
  k := 0
  t := 0
  sr := 0
  excl := false
  frames := []
  epoch := 0
  env := []

/-- The state after reset of the reference instance, N = 3 (R4, R9). DESIGN CHOICE, log entry 2. -/
def State.reset : State := State.resetWith Config.ref20

end Sys2Proof.Machine
end

