-- ==== Sys2Proof/Machine/Validity.lean ====
section
/-! DEFINITION. The validity predicate of a parameter record (R6, V1 to V6), in natural numbers, and the quantities
derived from the record alone: `FB_BYTES` (R4), the HIGH phase of a symbol (R58), the duration of a transmission
(R106). -/

namespace Sys2Proof

/-- `| ns(ticks) - nominal | <= tol` with `ns(t) = t * 10^9 / F_CLK` exact (R6), multiplied through by `F_CLK`. -/
def Params.within (c : Params) (ticks nominal tol : Nat) : Bool :=
  decide (ticks * 1000000000 ≤ (nominal + tol) * c.fClk) && decide (nominal * c.fClk ≤ ticks * 1000000000 + tol * c.fClk)

/-- V1: `0 < T0H < T1H < TBIT`. -/
def Params.v1 (c : Params) : Bool := decide (0 < c.t0h) && decide (c.t0h < c.t1h) && decide (c.t1h < c.tBit)

/-- V2: `T0H` within 150 ns of 400 ns. -/
def Params.v2 (c : Params) : Bool := c.within c.t0h 400 150

/-- V3: `T1H` within 150 ns of 800 ns. -/
def Params.v3 (c : Params) : Bool := c.within c.t1h 800 150

/-- V4: `TBIT` within `TOL_PERIOD_NS` of 1250 ns. -/
def Params.v4 (c : Params) : Bool := c.within c.tBit 1250 c.tolPeriodNs

/-- V5: `ns(TLATCH) >= 300000`. -/
def Params.v5 (c : Params) : Bool := decide (300000 * c.fClk ≤ c.tLatch * 1000000000)

/-- V6: `1 <= N <= 255`. -/
def Params.v6 (c : Params) : Bool := decide (1 ≤ c.ledCount) && decide (c.ledCount ≤ 255)

/-- The record is valid: all of V1 to V6 (R6). It is checked as a whole (R7, R149). -/
def Params.valid (c : Params) : Bool := c.v1 && c.v2 && c.v3 && c.v4 && c.v5 && c.v6

/-- `FB_BYTES = 3 * N` (R4). -/
def Params.fbBytes (c : Params) : Nat := 3 * c.ledCount

/-- Ticks of the HIGH phase of the symbol for bit `v` (R58, R96). -/
def Params.highTicks (c : Params) (v : Bool) : Nat := if v then c.t1h else c.t0h

/-- `TLEAD + 24 * N * TBIT + TLATCH` (R106). -/
def Params.duration (c : Params) : Nat := c.tLead + 24 * c.ledCount * c.tBit + c.tLatch

end Sys2Proof
end

