-- ==== Sys2Proof/Machine/Flags.lean ====
section
/-! DEFINITION. The block's status and output signals, all functions of the state: `cmd_ready` (R15), the level of
`DOUT` (R104), `EXCL` as the host sees it (R16), the outputs in a tick with `RST` asserted (R140, R141). There are no
condition codes (R15). -/

namespace Sys2Proof.Machine

/-- `cmd_ready = (MODE == IDLE)` (R15, R22). -/
def State.cmdReady (s : State) : Bool := decide (s.mode = .idle)

/-- The level R104 gives for the sequencer's position: HIGH exactly in SEND while `T` is below the HIGH ticks of the
bit being sent, `SR[7]` (R14). -/
def State.level (s : State) : Bool :=
  decide (s.mode = .send) && decide (s.t < s.params.highTicks (s.sr.getLsbD 7))

/-- `RST` is asserted in the tick that starts in this state. -/
def State.rstAsserted (s : State) : Bool :=
  match s.env with
  | .assertRst _ :: _ => true
  | _ => false

/-- The level on the line during the tick: `DOUT`, and LOW at once while `RST` is asserted (R141). -/
def State.line (s : State) : Bool := s.dout && !s.rstAsserted

/-- The output signals of R22 during one tick. -/
structure Outputs where
  cmdReady : Bool
  dout : Bool
  excl : Bool
  deriving DecidableEq, Repr

/-- The outputs during the tick; while `RST` is asserted they are those of the reset state (R140). -/
def State.outputs (s : State) : Outputs :=
  { cmdReady := s.cmdReady || s.rstAsserted, dout := s.line, excl := s.excl && !s.rstAsserted }

/-- The host's effective interrupt enable: its own enable AND NOT `EXCL` (R16). -/
def State.effectiveEnable (s : State) (own : Bool) : Bool := own && !s.outputs.excl

end Sys2Proof.Machine
end

