-- ==== Sys2Proof/Machine/Operands.lean ====
section
/-! DEFINITION. SETPIXEL's operands (R54, R84): the index as a natural number, its range check, the byte address, and
the three bytes in storage order (R30, R33). -/

namespace Sys2Proof.Machine

/-- `index = zext(IDX)` (R54). -/
def pixelIndex (idx : Byte) : Nat := idx.toNat

/-- `index < N`, unsigned (R31, R54, R84). -/
def indexInRange (c : Params) (idx : Byte) : Bool := decide (pixelIndex idx < c.ledCount)

/-- `a = 3 * idx` (R84): the address of the pixel's green byte. -/
def pixelAddress (idx : Byte) : Nat := 3 * pixelIndex idx

/-- What SETPIXEL stores, in wire order: green at `a`, red at `a + 1`, blue at `a + 2` (R82). -/
def pixelCells (a : Nat) (r g b : Byte) : List Host.Cell := [(a, g), (a + 1, r), (a + 2, b)]

end Sys2Proof.Machine
end

