-- ==== Sys2Proof/Machine/Ops.lean ====
section
/-! DEFINITION. The named operations over the frame buffer and the sequencer's registers: reads and writes of `FB`
(R11, R36), taking and releasing the exclusion (R101, R102, the analogue of exception entry and return: R125, R126),
the sequencer's step (R104), reset (R140, R141), and the command handshake (R22, R24). -/

namespace Sys2Proof.Machine

/-! ### The frame buffer -/

/-- The byte written at `a` since the last reset, if one was. -/
def Memory.find : Memory → Nat → Option Byte
  | [], _ => none
  | (b, v) :: rest, a => if a = b then some v else Memory.find rest a

/-- `FB[a] <- v`, keeping the addresses rising. -/
def Memory.write : Memory → Nat → Byte → Memory
  | [], a, v => [(a, v)]
  | (b, u) :: rest, a, v =>
    if a < b then (a, v) :: (b, u) :: rest
    else if a = b then (a, v) :: rest
    else (b, u) :: Memory.write rest a v

/-- Several bytes stored as one indivisible update (R37). -/
def Memory.writeAll : Memory → List Host.Cell → Memory
  | m, [] => m
  | m, (a, v) :: rest => Memory.writeAll (m.write a v) rest

/-- All `size` bytes equal to `v` (INIT and CLEAR: R80, R81). -/
def Memory.fill (size : Nat) (v : Byte) : Memory := (List.range size).map (fun a => (a, v))

/-- `FB[a]` (R11). A byte not written since reset is the free value of R20. -/
def State.fbByte (s : State) (a : Nat) : Byte := (s.fb.find a).getD (Config.unspecifiedByte s.epoch a)

/-- All `3N` bytes of `FB`, in wire order. -/
def State.frameBytes (s : State) : List Byte := (List.range s.params.fbBytes).map s.fbByte

/-- The observation `pixel(i) = (FB[3i+1], FB[3i], FB[3i+2])` (R12); no command reads it. -/
def State.pixel (s : State) (i : Nat) : Pixel :=
  { r := s.fbByte (3 * i + 1), g := s.fbByte (3 * i), b := s.fbByte (3 * i + 2) }

/-- The sequencer's load of one byte (R36); a location `>= 3N` does not exist (R30). -/
def withByte (s : State) (a : Nat) (body : Byte → Result) : Result :=
  if a < s.params.fbBytes then body (s.fbByte a) else .fault (.noSuchLocation a)

/-! ### Named updates -/

/-- `FB` as a whole. -/
def State.setFb (s : State) (m : Memory) : State := { s with fb := m }

/-- `SEQ <- (mode, p, k, t)` (00_scope.md section 5.2, R13). -/
def State.setSeq (s : State) (mode : Mode) (p : Nat) (k : Fin 8) (t : Nat) : State :=
  { s with mode := mode, p := p, k := k, t := t }

/-- `SR <- v` (R14). -/
def State.setSr (s : State) (v : Byte) : State := { s with sr := v }

/-- The remaining moves of the host and the environment. -/
def State.setEnv (s : State) (env : List Move) : State := { s with env := env }

/-- `DOUT` follows the sequencer's position: its level during the next tick (R104, R109). -/
def State.driveLine (s : State) : State := { s with dout := s.level }

/-- `FRAMES` gains the frame just sent (R19, R108). -/
def State.recordFrame (s : State) : State := { s with frames := s.frames ++ [s.frameBytes] }

/-! ### The exclusion -/

/-- Entry: acquire the exclusion (R101, R125). It saves nothing: `EXCL` masks the host's own enable (R16). -/
def State.acquire (s : State) : State := { s with excl := true }

/-- Return: release the exclusion (R102, R126). -/
def State.release (s : State) : State := { s with excl := false }

/-! ### The sequencer -/

/-- Enter SEND at the first tick of byte `p`: `SR` is loaded with `FB[p]` (R14, R36) and the line is driven. The load
takes effect at the clock edge before that tick (R99; DEDUCED, log entry 10). -/
def beginByte (s : State) (p : Nat) : Result :=
  withByte s p fun x => .next (((s.setSeq .send p 0 0).setSr x).driveLine)

/-- TRANSMIT accepted: `EXCL <- 1; P, K, T <- 0`, then SEND if `TLEAD = 0` and LEAD otherwise (R90, R103, R104). -/
def startFrame (s : State) : Result :=
  if s.params.tLead = 0 then beginByte s.acquire 0
  else .next (((s.acquire.setSeq .lead 0 0 0).setSr 0).driveLine)

/-- One tick in LEAD (R104). -/
def tickLead (s : State) : Result :=
  if s.t + 1 < s.params.tLead then .next ((s.setSeq .lead s.p s.k (s.t + 1)).driveLine) else beginByte s s.p

/-- One tick in SEND (R104): the three nested loops, ticks in a bit, bits in a byte, bytes in a frame. -/
def tickSend (s : State) : Result :=
  if s.t + 1 < s.params.tBit then .next ((s.setSeq .send s.p s.k (s.t + 1)).driveLine)
  else if s.k.val < 7 then .next (((s.setSeq .send s.p (s.k + 1) 0).setSr (s.sr <<< 1)).driveLine)
  else if s.p + 1 < s.params.fbBytes then beginByte s (s.p + 1)
  else .next (((s.setSeq .latch 0 0 0).setSr 0).driveLine)

/-- One tick in LATCH (R100, R102, R104): at its end the exclusion is released and the frame is complete. -/
def tickLatch (s : State) : Result :=
  if s.t + 1 < s.params.tLatch then .next ((s.setSeq .latch s.p s.k (s.t + 1)).driveLine)
  else .next ((((s.setSeq .idle 0 0 0).setSr 0).release).recordFrame.driveLine)

/-- The state change of one tick in which no command is accepted and `RST` is not asserted (R104). -/
def advance (s : State) : Result :=
  match s.mode with
  | .idle => .next s
  | .lead => tickLead s
  | .send => tickSend s
  | .latch => tickLatch s

/-! ### Whole ticks -/

/-- The model gives no meaning to an invalid parameter record (R6, R25). -/
def withValidParams (s : State) (body : Result) : Result :=
  if s.params.valid then body else .refused .invalidParameters

/-- A tick in which the block is shown no command, or one it does not execute. -/
def quietTick (s : State) : Result := withValidParams s (advance s)

/-- A tick in which a command with this effect is shown at the port: executed if `cmd_ready = 1`; held otherwise, the
sequencer taking its own step (R22, R24, R37, R104). Log entry 22. -/
def onCommand (s : State) (effect : State → Result) : Result :=
  if s.cmdReady then withValidParams s (effect s) else quietTick s

/-- The block after a tick with `RST` asserted (R140, R141): `FB` unspecified anew, parameters and `FRAMES` kept. -/
def State.afterReset (s : State) : State :=
  { params := s.params, fb := [], dout := false, mode := .idle, p := 0, k := 0, t := 0, sr := 0, excl := false,
    frames := s.frames, epoch := s.epoch + 1, env := s.env }

/-- A tick with `RST` asserted: it overrides everything else (R127). -/
def resetTick (s : State) : Result := withValidParams s (.next s.afterReset)

end Sys2Proof.Machine
end

