-- ==== Sys2Proof/Machine/FrameBuffer.lean ====
section
/-! DEFINITION. The three commands that write the frame buffer (41_framebuffer.md). Each leaves `MODE`, `P`, `K`, `T`,
`SR`, `EXCL` and `DOUT` unchanged, returns nothing and takes one tick (R85, log entry 8). -/

namespace Sys2Proof.Machine

/-- INIT (R80): zero-fills the buffer, whatever it held. -/
def execInit (s : State) : Result :=
  onCommand s fun s => .next (s.setFb (Memory.fill s.params.fbBytes 0x00))

/-- CLEAR (R81): every channel of every pixel becomes 0; nothing is transmitted. -/
def execClear (s : State) : Result :=
  onCommand s fun s => .next (s.setFb (Memory.fill s.params.fbBytes 0x00))

/-- SETPIXEL (R82): the three bytes of pixel `idx`, in wire order, as one update; nothing if `idx >= N` (R83). -/
def execSetpixel (idx r g b : Byte) (s : State) : Result :=
  onCommand s fun s =>
    if indexInRange s.params idx then .next (s.setFb (s.fb.writeAll (pixelCells (pixelAddress idx) r g b))) else .next s

end Sys2Proof.Machine
end

