-- ==== Sys2Proof/Machine/Transport.lean ====
section
/-! DEFINITION. The two commands that transmit (42_transport.md sections 1 and 2). The command starts the sequencer;
the frame and the latch delay run in the ticks that follow (R104), and the waveform they put on the line is that of
Machine/Wire.lean (R105). -/

namespace Sys2Proof.Machine

/-- TRANSMIT (R90): acquire the exclusion and start the sequencer. `FB` is not written (R38). -/
def execTransmit (s : State) : Result := onCommand s startFrame

/-- CLEARSHOW (R91): every byte of `FB` becomes 0, then exactly TRANSMIT on the cleared buffer, in the same tick. -/
def execClearshow (s : State) : Result :=
  onCommand s fun s => startFrame (s.setFb (Memory.fill s.params.fbBytes 0x00))

end Sys2Proof.Machine
end

