-- ==== Sys2Proof/Machine/Dispatch.lean ====
section
/-! DEFINITION. What one tick does with a command shown at the port: one arm per command of R51. -/

namespace Sys2Proof.Machine

def exec (i : Instr) (s : State) : Host.Outcome State Fault Refusal :=
  match i with
  | .init => Sys2Proof.Machine.execInit s
  | .setpixel idx r g b => Sys2Proof.Machine.execSetpixel idx r g b s
  | .clear => Sys2Proof.Machine.execClear s
  | .transmit => Sys2Proof.Machine.execTransmit s
  | .clearshow => Sys2Proof.Machine.execClearshow s

end Sys2Proof.Machine
end

