-- ==== Sys2Proof/Machine/Tick.lean ====
section
/-! DEFINITION. One tick of `CLK` (R104): what the host and the environment do in it (the first move of `env`), and
what the block does. -/

namespace Sys2Proof.Machine

/-- The tick with this word shown at the port: the command it decodes to, or, for a reserved `OP`, a no-op (R53). -/
def runWord (w : CmdWord) (s : State) : Result :=
  match decode w with
  | .ok i => exec i s
  | .error (.reservedOpcode _) => quietTick s

/-- The moves left after a tick in which a word was presented: it is gone once accepted and stays while held (R22). -/
def State.afterPresent (s : State) (rest : List Move) : State := if s.cmdReady then s.setEnv rest else s

/-- A tick the clock does not give: without meaning in a transmission (R132 O1), nothing at all in IDLE (DEDUCED, log
entry 12). -/
def stalledTick (s : State) : Result :=
  if s.cmdReady then withValidParams s (.next s) else .refused .clockStalled

/-- A tick in which the host takes an interrupt: without meaning while `EXCL = 1` (R123, R132 O2). -/
def interruptTick (s : State) : Result := if s.excl then .refused .exclusionIgnored else quietTick s

/-- One tick. -/
def tick (s : State) : Result :=
  match s.env with
  | [] => quietTick s
  | .wait :: rest => quietTick (s.setEnv rest)
  | .offer w :: rest => runWord w (s.setEnv rest)
  | .present w :: rest => runWord w (s.afterPresent rest)
  | .assertRst _ :: rest => resetTick (s.setEnv rest)
  | .takeInterrupt :: rest => interruptTick (s.setEnv rest)
  | .stallClock :: rest => stalledTick (s.setEnv rest)
  | .writeFb _ _ :: _ => .refused .foreignWrite

/-- The block at rest in IDLE with the same `FB`, ghost and inputs: a state in which a command can be accepted. It is
the state itself if that is in IDLE. -/
def State.parked (s : State) : State :=
  if s.cmdReady then s
  else { s with dout := false, mode := .idle, p := 0, k := 0, t := 0, sr := 0, excl := false }

/-- The host presents word `w` in the next tick, before its other moves; the block is in IDLE, so it is accepted. -/
def State.withCommand (s : State) (w : CmdWord) : State := s.parked.setEnv (.present w :: s.env)

end Sys2Proof.Machine
end

