-- ==== Sys2Proof/Machine/Step.lean ====
section
/-! DEFINITION. The step: one tick of `CLK` (R104), and how a command comes to be the next one (log entry 5). -/

namespace Sys2Proof.Machine

/-- One tick of the clock (R23, R104). -/
def step (s : State) : Host.Outcome State Fault Refusal := tick s

/-- `s` with the 40-bit word `w` presented at the command port, where the very next step accepts it. -/
def State.withFetchWord (s : State) (nbits w : Nat) : State := s.withCommand (BitVec.ofNat 40 (w % 2 ^ nbits))

end Sys2Proof.Machine
end

