-- ==== Sys2Proof/Machine/Resolver.lean ====
section
/-! DEFINITION. The external palette and brightness resolver (40_resolver.md): a pure function on the host, with no
state and no command encoding (R70). -/

namespace Sys2Proof.Machine

/-- Entry `i` of the palette (R71). Entry 0 is off, and so is every index above 7: such an index is "coerced to index
0" before the palette is read (R72, R55). -/
def paletteEntry (pal : Palette) (i : Nat) : Pixel :=
  match i with
  | 1 => pal.red
  | 2 => pal.green
  | 3 => pal.blue
  | 4 => pal.yellow
  | 5 => pal.cyan
  | 6 => pal.magenta
  | 7 => pal.white
  | _ => Pixel.off

/-- `if index <= 7 then index else 0` (R72). -/
def coerceColorIndex (index : Byte) : Nat := if index.toNat ≤ 7 then index.toNat else 0

/-- The scaling law `(p * s) div 255` on natural numbers (R73, R74). -/
def scaleChannel (p s : Byte) : Byte := BitVec.ofNat 8 (p.toNat * s.toNat / 255)

/-- `resolveColor(index, brightness)` (R70). -/
def resolveColor (pal : Palette) (index brightness : Byte) : Pixel :=
  let base := paletteEntry pal (coerceColorIndex index)
  { r := scaleChannel base.r brightness, g := scaleChannel base.g brightness, b := scaleChannel base.b brightness }

end Sys2Proof.Machine
end

