-- ==== Sys2Proof/WellFormed.lean ====
section
/-! DEFINITION. Which assembler lines have a word: every operand is a `u8` (R50, R54, R55, R59). A term of `Instr`
carries 8-bit vectors and needs no check; a parameter record's check is `Params.valid` (Machine/Validity.lean). -/

namespace Sys2Proof

/-- A number that fits one 8-bit field of the command word. -/
def isU8 (n : Nat) : Bool := decide (n ≤ 255)

/-- Every operand of the line is a `u8`. An index of 3 to 255 is well formed whatever `N` is: out of range for the
frame buffer is no assembly error (R83). -/
def AsmLine.wf : AsmLine → Bool
  | .init => true
  | .setpixel idx r g b => isU8 idx && isU8 r && isU8 g && isU8 b
  | .clear => true
  | .transmit => true
  | .clearshow => true
  | .setcolor idx cidx bright => isU8 idx && isU8 cidx && isU8 bright
  | .off idx => isU8 idx
  | .clearThenTransmit => true

end Sys2Proof
end

