-- ==== Sys2Proof/Machine/Assembler.lean ====
section
/-! DEFINITION. The assembler (R59) with the pseudo-operations (R60, R75), and a program as the host's moves (R25). -/

namespace Sys2Proof.Machine

/-- An operand as its 8-bit field. -/
def operandByte (n : Nat) : Byte := BitVec.ofNat 8 n

/-- `SETPIXEL idx` with the channels of a Pixel in the order red, green, blue (R60). -/
def setpixelTo (idx : Nat) (px : Pixel) : Instr := .setpixel (operandByte idx) px.r px.g px.b

/-- The commands a line stands for (R59, R60); nothing for a line that is not well formed. -/
def expandLine (pal : Palette) (l : AsmLine) : Option (List Instr) :=
  if l.wf then
    some (match l with
      | .init => [.init]
      | .setpixel idx r g b => [.setpixel (operandByte idx) (operandByte r) (operandByte g) (operandByte b)]
      | .clear => [.clear]
      | .transmit => [.transmit]
      | .clearshow => [.clearshow]
      | .setcolor idx cidx bright => [setpixelTo idx (resolveColor pal (operandByte cidx) (operandByte bright))]
      | .off idx => [setpixelTo idx Pixel.off]
      | .clearThenTransmit => [.clear, .transmit])
  else none

/-- The words of a line, one per command (R59). -/
def lineWords (pal : Palette) (l : AsmLine) : Option (List CmdWord) := (expandLine pal l).map (List.map encode)

/-- A program: its commands presented in order, each until it is accepted (R25). -/
def presentAll (program : List Instr) : List Move := program.map (fun i => .present (encode i))

end Sys2Proof.Machine
end

