-- ==== Sys2Proof/Machine/Observe.lean ====
section
/-! DEFINITION. What a run is observed by (R25): the `DOUT` levels tick by tick, and when the run is over. -/

namespace Sys2Proof.Machine

/-- The levels on the line during the next `n` ticks; it ends early where the machine stops. -/
def levels : Nat → State → List Bool
  | 0, _ => []
  | n + 1, s =>
    s.line ::
      (match step s with
       | .next s' => levels n s'
       | .fault _ => []
       | .refused _ => [])

/-- `n` ticks (R25), stopping where the machine stops. -/
def runTicks : Nat → State → Result
  | 0, s => .next s
  | n + 1, s =>
    match step s with
    | .next s' => runTicks n s'
    | .fault r => .fault r
    | .refused r => .refused r

/-- The run is over: every command accepted, every other move made, and `MODE = IDLE` (R25). -/
def State.over (s : State) : Bool := decide (s.env = []) && s.cmdReady

end Sys2Proof.Machine
end

