-- ==== Sys2Proof/Machine/Wire.lean ====
section
/-! DEFINITION. The trace semantics of a transmission (42_transport.md rules R90 to R100): EMITBIT, EMITBYTE,
EMITFRAME and LATCH as the levels they put on `DOUT`, one a tick, and reading a trace back (R108). -/

namespace Sys2Proof.Machine

/-- A trace: the level of `DOUT` in each tick, the first tick first (00_scope.md section 5.3). -/
abbrev Trace := List Bool

/-- `emit(l, n)`: `n` ticks of level `l`. -/
def emit (l : Bool) (n : Nat) : Trace := List.replicate n l

/-- `EMITBIT(v)` (R96): HIGH for `h` ticks, LOW for the remainder of the bit period. -/
def emitBit (c : Params) (v : Bool) : Trace := emit true (c.highTicks v) ++ emit false (c.tBit - c.highTicks v)

/-- The bits of a byte as they are sent, bit 7 first (R95). -/
def byteBits (x : Byte) : List Bool := (List.range 8).map (fun k => x.getLsbD (7 - k))

/-- `EMITBYTE(x)` (R95). -/
def emitByte (c : Params) (x : Byte) : Trace := (byteBits x).flatMap (emitBit c)

/-- `EMITFRAME` (R93): the bytes in buffer order with nothing between them (R99). -/
def emitFrame (c : Params) (bytes : List Byte) : Trace := bytes.flatMap (emitByte c)

/-- `LATCH` (R100). -/
def emitLatch (c : Params) : Trace := emit false c.tLatch

/-- What TRANSMIT appends to the trace (R90): lead-in, frame, latch delay. -/
def transmitTrace (c : Params) (bytes : List Byte) : Trace :=
  emit false c.tLead ++ emitFrame c bytes ++ emitLatch c

/-- The bits `w[0], w[1], ...` of a frame (R32). -/
def frameBits (bytes : List Byte) : List Bool := bytes.flatMap byteBits

/-- The ticks at which the line goes from LOW to HIGH; `last` is the level before the trace and `start` its first tick's
number. -/
def risingEdgesFrom (last : Bool) (start : Nat) : Trace → List Nat
  | [] => []
  | l :: rest =>
    if l && !last then start :: risingEdgesFrom l (start + 1) rest else risingEdgesFrom l (start + 1) rest

/-- The rising edges `e[0] < e[1] < ...` of a trace that follows a LOW line (R108). -/
def risingEdges (tr : Trace) : List Nat := risingEdgesFrom false 0 tr

/-- `h[j]`: the HIGH ticks from tick `e` on (R108). -/
def highRun (tr : Trace) (e : Nat) : Nat := ((tr.drop e).takeWhile id).length

/-- `w[j] = 1` exactly when `h[j] = T1H` (R108). -/
def traceBits (c : Params) (tr : Trace) : List Bool :=
  (risingEdges tr).map (fun e => decide (highRun tr e = c.t1h))

/-- A byte from its bits, the first one the most significant. -/
def byteOfBits (bits : List Bool) : Byte :=
  bits.foldl (fun acc v => acc <<< 1 ||| (if v then 1 else 0)) 0

/-- Bits taken eight at a time; a rest of fewer than eight is dropped. -/
def bytesOfBits : List Bool → List Byte
  | a :: b :: c :: d :: e :: f :: g :: h :: rest => byteOfBits [a, b, c, d, e, f, g, h] :: bytesOfBits rest
  | _ => []

/-- The bytes a complete transmission carried, read off its trace (R108). -/
def readBack (c : Params) (tr : Trace) : List Byte := bytesOfBits (traceBits c tr)

end Sys2Proof.Machine
end

