-- ==== Sys2Proof/Safety.lean ====
section
/-! DEFINITION. What counts as a safe state and a lawful environment, in the terms the statements use: the invariant of
R21 with the links of R14 and R104, the moves that break no obligation (R132), and the ticks a transmission still
needs (R106). -/

namespace Sys2Proof

open Sys2Proof.Machine

/-- The invariants of R21 ("hold in every reachable state"), with what R14 says of `SR`, what R104 says of `DOUT`, the
bounds of `T` in LEAD and LATCH (R13), the length of a recorded frame (R19), and the canonical form of `FB`. -/
structure Inv (s : State) : Prop where
  /-- The record has a meaning (R6). -/
  params_valid : s.params.valid = true
  /-- `FB` is canonical and stays within its `3N` locations (R11, R30). -/
  fb_wf : s.fb.wf s.params.fbBytes
  /-- `MODE = IDLE` implies `P = K = T = 0`, `SR = 0`. -/
  idle_zero : s.mode = .idle → s.p = 0 ∧ s.k = 0 ∧ s.t = 0 ∧ s.sr = 0
  /-- In LEAD and LATCH `P = K = 0` and `SR = 0` (R14, R104). -/
  gap_zero : s.mode = .lead ∨ s.mode = .latch → s.p = 0 ∧ s.k = 0 ∧ s.sr = 0
  /-- `EXCL = 1` if and only if `MODE != IDLE`. -/
  excl_iff : s.excl = true ↔ s.mode ≠ .idle
  /-- `P <= 3N - 1`. -/
  p_bound : s.p < s.params.fbBytes
  /-- In LEAD `T` is in `0 .. TLEAD-1` (R13). -/
  lead_bound : s.mode = .lead → s.t < s.params.tLead
  /-- In SEND `T <= TBIT - 1`. -/
  send_bound : s.mode = .send → s.t < s.params.tBit
  /-- In LATCH `T` is in `0 .. TLATCH-1` (R13). -/
  latch_bound : s.mode = .latch → s.t < s.params.tLatch
  /-- After `K` completed bits `SR = FB[P] << K` (R14). -/
  sr_shifted : s.mode = .send → s.sr = s.fbByte s.p <<< s.k.val
  /-- `DOUT` is the level of R104; outside SEND it is 0. -/
  dout_level : s.dout = s.level
  /-- Each recorded frame is `3N` bytes long (R19). -/
  frames_length : ∀ f ∈ s.frames, f.length = s.params.fbBytes

/-- The record is valid and a command can be accepted. -/
def Ready (s : State) : Prop := s.params.valid = true ∧ s.mode = .idle

/-- The record is valid and a transmission is running. -/
def Busy (s : State) : Prop := s.params.valid = true ∧ s.mode ≠ .idle

/-- Moves that leave the block to itself: nothing presented, or a word presented. -/
def isPortMove : Move → Bool
  | .wait => true
  | .offer _ => true
  | .present _ => true
  | .assertRst _ => false
  | .takeInterrupt => false
  | .stallClock => false
  | .writeFb _ _ => false

/-- The move breaks one of the obligations O1 to O3 of R132 in state `s`. -/
def breaksObligation (s : State) : Move → Bool
  | .wait => false
  | .offer _ => false
  | .present _ => false
  | .assertRst _ => false
  | .takeInterrupt => s.excl
  | .stallClock => !s.cmdReady
  | .writeFb _ _ => true

/-- The word shown at the port in the tick that starts in `s`, if one is. -/
def shownWord (s : State) : Option CmdWord :=
  match s.env with
  | .offer w :: _ => some w
  | .present w :: _ => some w
  | _ => none

/-- The state without what the host and the environment will do: the block alone, and its ghost. -/
def block (s : State) : State := s.setEnv []

/-- The ticks until the running transmission is over, 0 in IDLE (R106). -/
def ticksLeft (s : State) : Nat :=
  match s.mode with
  | .idle => 0
  | .lead => (s.params.tLead - s.t) + 24 * s.params.ledCount * s.params.tBit + s.params.tLatch
  | .send => ((8 * (s.params.fbBytes - s.p) - s.k.val) * s.params.tBit - s.t) + s.params.tLatch
  | .latch => s.params.tLatch - s.t

/-- The word starts a transmission: `OP` is TRANSMIT's or CLEARSHOW's (R51). -/
def startsFrame (w : CmdWord) : Bool := decide (decode w = .ok .transmit) || decide (decode w = .ok .clearshow)

/-- The word writes `FB`: INIT, SETPIXEL, CLEAR or CLEARSHOW (R12). -/
def writesBuffer (w : CmdWord) : Bool :=
  match decode w with
  | .ok .init => true
  | .ok (.setpixel _ _ _ _) => true
  | .ok .clear => true
  | .ok .transmit => false
  | .ok .clearshow => true
  | .error _ => false

/-- Software's duty after reset (R148): in this schedule at least `latch` ticks pass between the release of `RST` and
the first word that starts a transmission. `quiet` counts the ticks since the release, `none` once a transmission
has been started. The block does not enforce it. -/
def waitsAfterReset (latch : Nat) : Option Nat → List Move → Bool
  | _, [] => true
  | _, .assertRst _ :: rest => waitsAfterReset latch (some 0) rest
  | none, _ :: rest => waitsAfterReset latch none rest
  | some n, .offer w :: rest =>
    if startsFrame w then decide (latch ≤ n) && waitsAfterReset latch none rest
    else waitsAfterReset latch (some (n + 1)) rest
  | some n, .present w :: rest =>
    if startsFrame w then decide (latch ≤ n) && waitsAfterReset latch none rest
    else waitsAfterReset latch (some (n + 1)) rest
  | some n, .stallClock :: rest => waitsAfterReset latch (some n) rest
  | some n, _ :: rest => waitsAfterReset latch (some (n + 1)) rest

end Sys2Proof
end

