-- ==== Sys2Proof/Certificates/Slice0/Obligations.lean ====
section
/-! DEFINITION. The statements for the provers, one per rule or group of rules of spec/ (OBLIGATIONS.json lists them
with their citations). They are about the machine, for every valid parameter record; none is about a program, and none
rests on the value of a free byte. -/

open Sys2Proof Sys2Proof.Machine

/-! ### Encoding -/

/-- The worked encodings of 30_encoding.md section 9 and TV-E2, TV-E9, TV-E14 decode to what the spec writes beside
them. -/
def Obligations.WorkedEncodingsDecode : Prop :=
  decode 0x0100000000 = .ok .init ∧ decode 0x01FF123456 = .ok .init ∧
  decode 0x0201640000 = .ok (.setpixel 1 100 0 0) ∧ decode 0x020000FF00 = .ok (.setpixel 0 0 0xFF 0) ∧
  decode 0x0203010203 = .ok (.setpixel 3 1 2 3) ∧ decode 0x0300000000 = .ok .clear ∧
  decode 0x0400000000 = .ok .transmit ∧ decode 0x04ABCDEF01 = .ok .transmit ∧
  decode 0x0500000000 = .ok .clearshow ∧ decode 0x0000000000 = .error (.reservedOpcode 0x00) ∧
  decode 0x0600000000 = .error (.reservedOpcode 0x06) ∧ decode 0x8001640000 = .error (.reservedOpcode 0x80) ∧
  decode 0xFFFFFFFFFF = .error (.reservedOpcode 0xFF)

/-- Decoding the word of a command gives the command back, and the word a command was decoded from is its encoding but
for the bits R52 says are ignored. -/
def Obligations.DecodeInvertsEncode : Prop :=
  (∀ i : Instr, decode (encode i) = .ok i) ∧
  (∀ (w : CmdWord) (i : Instr), decode w = .ok i → encode i = w &&& i.usedMask)

/-- Each row of the opcode map, as match and mask, covers exactly the words the decoder gives its mnemonic, and no word
is covered by two rows (R51). -/
def Obligations.OpcodeMapMatchesDecoder : Prop :=
  (∀ row ∈ opcodeTable, ∀ w : CmdWord,
    row.covers w = true ↔ ∃ i : Instr, decode w = .ok i ∧ i.mnemonic = row.mnemonic) ∧
  opcodeTable.Pairwise (fun a b => ∀ w : CmdWord, ¬ (a.covers w = true ∧ b.covers w = true))

/-- What the decoder makes of a word with given fields: `OP` selects, SETPIXEL takes IDX, R, G, B as they stand, the
other commands ignore them, every other `OP` is reserved (R50 to R54). -/
def Obligations.DecoderReadsFields : Prop :=
  ∀ op idx r g b : Byte,
    decode (packWord op idx r g b) =
      if op = 0x01 then .ok .init
      else if op = 0x02 then .ok (.setpixel idx r g b)
      else if op = 0x03 then .ok .clear
      else if op = 0x04 then .ok .transmit
      else if op = 0x05 then .ok .clearshow
      else .error (.reservedOpcode op)

/-- R53 (the spec's decision D5, log entry 6): a reserved word shown in IDLE is consumed and changes nothing. -/
def Obligations.ReservedWordChangesNothing : Prop :=
  ∀ (s : State) (w : CmdWord) (rest : List Move), Ready s → (fieldOp w = 0 ∨ 5 < (fieldOp w).toNat) →
    (s.env = .offer w :: rest ∨ s.env = .present w :: rest) → step s = .next (s.setEnv rest)

/-- R59: a well-formed SETPIXEL line assembles to one word whose fields are the numbers written; a line with an operand
above 255 assembles to nothing. -/
def Obligations.SetpixelLineAssembles : Prop :=
  ∀ (pal : Palette) (idx r g b : Nat),
    ((AsmLine.setpixel idx r g b).wf = true →
      ∃ w, lineWords pal (.setpixel idx r g b) = some [w] ∧ fieldOp w = 0x02 ∧ (fieldIdx w).toNat = idx ∧
        (fieldR w).toNat = r ∧ (fieldG w).toNat = g ∧ (fieldB w).toNat = b) ∧
    ((255 < idx ∨ 255 < r ∨ 255 < g ∨ 255 < b) → lineWords pal (.setpixel idx r g b) = none)

/-! ### The frame buffer commands -/

/-- R80: every word with `OP = 0x01` is INIT; it completes in IDLE, every byte and pixel reads zero, the outcome does not
depend on what `FB` held, it is exactly CLEAR's, and nothing but `FB` changes. -/
def Obligations.InitZeroFillsBuffer : Prop :=
  (∀ w : CmdWord, fieldOp w = 0x01 → decode w = .ok .init) ∧
  ∀ s : State, Ready s → ∃ t, exec .init s = .next t ∧
    (∀ a, a < s.params.fbBytes → t.fbByte a = 0) ∧ (∀ i, i < s.params.ledCount → t.pixel i = Pixel.off) ∧
    (∀ m : Memory, exec .init (s.setFb m) = .next t) ∧ exec .clear s = .next t ∧ t = s.setFb t.fb

/-- R81: every word with `OP = 0x03` is CLEAR; it completes in IDLE, every byte and pixel reads zero regardless of the
prior buffer, the transition is INIT's, nothing but `FB` changes (so nothing is transmitted), and clearing a clear
buffer changes nothing. -/
def Obligations.ClearZeroFillsBuffer : Prop :=
  (∀ w : CmdWord, fieldOp w = 0x03 → decode w = .ok .clear) ∧
  ∀ s : State, Ready s → ∃ t, exec .clear s = .next t ∧
    (∀ a, a < s.params.fbBytes → t.fbByte a = 0) ∧ (∀ i, i < s.params.ledCount → t.pixel i = Pixel.off) ∧
    (∀ m : Memory, exec .clear (s.setFb m) = .next t) ∧ exec .init s = .next t ∧ t = s.setFb t.fb ∧
    exec .clear t = .next t

/-- R82: every word with `OP = 0x02` is SETPIXEL with its four operand fields; it completes in IDLE whatever the operands
and changes nothing but `FB`; in range it stores green, red, blue at `3*idx`, `3*idx+1`, `3*idx+2` unmodified and every
other byte reads as before, and out of range it does nothing. -/
def Obligations.SetpixelWritesOnePixel : Prop :=
  (∀ w : CmdWord, fieldOp w = 0x02 → decode w = .ok (.setpixel (fieldIdx w) (fieldR w) (fieldG w) (fieldB w))) ∧
  ∀ (s : State) (idx r g b : Byte), Ready s →
    ∃ t, exec (.setpixel idx r g b) s = .next t ∧ t = s.setFb t.fb ∧
      (idx.toNat < s.params.ledCount →
        t.fbByte (3 * idx.toNat) = g ∧ t.fbByte (3 * idx.toNat + 1) = r ∧ t.fbByte (3 * idx.toNat + 2) = b ∧
        (∀ a, a < 3 * idx.toNat ∨ 3 * idx.toNat + 2 < a → t.fbByte a = s.fbByte a)) ∧
      (¬ idx.toNat < s.params.ledCount → t = s)

/-- R83: SETPIXEL with `idx >= N` completes in IDLE and changes nothing at all: no wrap, no saturation. -/
def Obligations.SetpixelOutOfRangeIsNoOp : Prop :=
  ∀ (s : State) (idx r g b : Byte), Ready s → s.params.ledCount ≤ idx.toNat →
    exec (.setpixel idx r g b) s = .next s

/-- R33: after SETPIXEL the pixel reads back as (r, g, b), and the three bytes the wire will carry for it are g, r, b in
that order. -/
def Obligations.SetpixelReordersToWireOrder : Prop :=
  ∀ (s t : State) (idx r g b : Byte), s.mode = .idle → idx.toNat < s.params.ledCount →
    exec (.setpixel idx r g b) s = .next t →
      t.pixel idx.toNat = { r := r, g := g, b := b } ∧
      (t.frameBytes.drop (3 * idx.toNat)).take 3 = [g, r, b]

/-- R12: a step changes what `FB` holds only by a command of the four that write it, accepted in IDLE, or by `RST`. -/
def Obligations.OnlyListedWritersChangeBuffer : Prop :=
  ∀ s t : State, step s = .next t → t.fb ≠ s.fb →
    (s.mode = .idle ∧ ∃ w, shownWord s = some w ∧ writesBuffer w = true) ∨ s.rstAsserted = true

/-! ### Transmission -/

/-- R90, R101, R104: TRANSMIT completes in IDLE with the exclusion taken and the sequencer at its first tick (of the
lead-in, or of symbol 0 if `TLEAD = 0`, the line then HIGH); `FB` and everything else stay (R38). -/
def Obligations.TransmitStartsSequencer : Prop :=
  ∀ s : State, Ready s → ∃ t, exec .transmit s = .next t ∧
    t.excl = true ∧ t.p = 0 ∧ t.k = 0 ∧ t.t = 0 ∧ t.mode = (if s.params.tLead = 0 then .send else .lead) ∧
    t.sr = (if s.params.tLead = 0 then s.fbByte 0 else 0) ∧ t.dout = decide (s.params.tLead = 0) ∧
    t.fb = s.fb ∧ (∀ a, t.fbByte a = s.fbByte a) ∧
    t.params = s.params ∧ t.frames = s.frames ∧ t.epoch = s.epoch ∧ t.env = s.env

/-- R91 (the spec's decision D21): CLEARSHOW completes in IDLE and is CLEAR and then TRANSMIT on the cleared buffer, in
one tick. -/
def Obligations.ClearshowIsClearThenTransmit : Prop :=
  ∀ s : State, Ready s → ∃ u t, exec .clear s = .next u ∧ exec .transmit u = .next t ∧ exec .clearshow s = .next t ∧
    (∀ a, a < s.params.fbBytes → t.fbByte a = 0) ∧ t.excl = true ∧ t.mode ≠ .idle ∧
    t.params = s.params ∧ t.frames = s.frames ∧ t.epoch = s.epoch ∧ t.env = s.env

/-- R104, LEAD: the lead-in counts, and after its last tick symbol 0 of byte `P` begins. -/
def Obligations.LeadTickCounts : Prop :=
  ∀ s : State, s.params.valid = true → s.mode = .lead → s.env = [] → s.p < s.params.fbBytes →
    ∃ t, step s = .next t ∧
      (s.t < s.params.tLead - 1 →
        t.mode = .lead ∧ t.p = s.p ∧ t.k = s.k ∧ t.t = s.t + 1 ∧ t.sr = s.sr ∧ t.dout = false) ∧
      (¬ s.t < s.params.tLead - 1 →
        t.mode = .send ∧ t.p = s.p ∧ t.k = 0 ∧ t.t = 0 ∧ t.sr = s.fbByte s.p ∧ t.dout = true) ∧
      t.excl = s.excl ∧ t.fb = s.fb ∧ t.params = s.params ∧ t.frames = s.frames ∧ t.epoch = s.epoch ∧ t.env = s.env

/-- R104, SEND, with R14: the three nested loops, ticks in a bit, bits in a byte, bytes in a frame, and the line as the
new position gives it. -/
def Obligations.SendTickWalksFrame : Prop :=
  ∀ s : State, s.params.valid = true → s.mode = .send → s.env = [] →
    ∃ t, step s = .next t ∧
      (s.t < s.params.tBit - 1 →
        t.mode = .send ∧ t.p = s.p ∧ t.k = s.k ∧ t.t = s.t + 1 ∧ t.sr = s.sr) ∧
      (¬ s.t < s.params.tBit - 1 → s.k.val < 7 →
        t.mode = .send ∧ t.p = s.p ∧ t.k.val = s.k.val + 1 ∧ t.t = 0 ∧ t.sr = s.sr <<< 1) ∧
      (¬ s.t < s.params.tBit - 1 → s.k.val = 7 → s.p < s.params.fbBytes - 1 →
        t.mode = .send ∧ t.p = s.p + 1 ∧ t.k = 0 ∧ t.t = 0 ∧ t.sr = s.fbByte (s.p + 1)) ∧
      (¬ s.t < s.params.tBit - 1 → s.k.val = 7 → ¬ s.p < s.params.fbBytes - 1 →
        t.mode = .latch ∧ t.p = 0 ∧ t.k = 0 ∧ t.t = 0 ∧ t.sr = 0) ∧
      (t.dout = true ↔ t.mode = .send ∧ t.t < s.params.highTicks (t.sr.getLsbD 7)) ∧
      t.excl = s.excl ∧ t.fb = s.fb ∧ t.params = s.params ∧ t.frames = s.frames ∧ t.epoch = s.epoch ∧ t.env = s.env

/-- R104, LATCH, with R102 and R19: the latch delay counts; after its last tick the block is idle, the exclusion is
released and the frame is recorded; the line is LOW throughout. -/
def Obligations.LatchTickEndsTransmission : Prop :=
  ∀ s : State, s.params.valid = true → s.mode = .latch → s.env = [] →
    ∃ t, step s = .next t ∧ t.dout = false ∧
      (s.t < s.params.tLatch - 1 →
        t.mode = .latch ∧ t.p = s.p ∧ t.k = s.k ∧ t.t = s.t + 1 ∧ t.sr = s.sr ∧ t.excl = s.excl ∧
        t.frames = s.frames) ∧
      (¬ s.t < s.params.tLatch - 1 →
        t.mode = .idle ∧ t.p = 0 ∧ t.k = 0 ∧ t.t = 0 ∧ t.sr = 0 ∧ t.excl = false ∧
        t.frames = s.frames ++ [s.frameBytes]) ∧
      t.fb = s.fb ∧ t.params = s.params ∧ t.epoch = s.epoch ∧ t.env = s.env

/-- R105: the tick semantics puts on the line, from the tick after acceptance on, exactly the trace of R90, and then the
block is back in IDLE with the exclusion released, `FB` as it was and the frame recorded. That the two semantics agree is an
inference the spec marks as its own; the recorded frame is its decision D27 (log entry 15). No hypothesis is put on
`FB`: before any INIT the bytes sent are the unspecified ones (R143, log entry 3). -/
def Obligations.TicksSendTheTrace : Prop :=
  ∀ s : State, Ready s → s.env = [] →
    ∃ s1, exec .transmit s = .next s1 ∧
      levels s.params.duration s1 = transmitTrace s.params s.frameBytes ∧
      runTicks s.params.duration s1 =
        .next { s with dout := false, mode := .idle, p := 0, k := 0, t := 0, sr := 0, excl := false,
                       frames := s.frames ++ [s.frameBytes] }

/-- R106, R92: whatever is presented meanwhile, a transmission is over after exactly the ticks it still needs and not
before, at most the duration of the record; just after acceptance it needs all of it. The total is an inference the
spec marks as its own (R106), with the lead-in of its decision D17 (log entry 26). -/
def Obligations.TransmissionEndsInTime : Prop :=
  (∀ s : State, Inv s → s.mode ≠ .idle → (∀ m ∈ s.env, isPortMove m = true) →
    ticksLeft s ≤ s.params.duration ∧
    (∃ t, runTicks (ticksLeft s) s = .next t ∧ t.mode = .idle ∧ t.excl = false) ∧
    (∀ n, n < ticksLeft s → ∃ u, runTicks n s = .next u ∧ u.mode ≠ .idle ∧ u.excl = true)) ∧
  (∀ s t : State, Ready s → exec .transmit s = .next t → ticksLeft t = s.params.duration)

/-- R107: two TRANSMITs of an unchanged buffer put the same waveform on the line twice, each after the one LOW tick in
which it is accepted, and leave `FB` and the sequencer as they were. -/
def Obligations.RepeatedTransmitSameWaveform : Prop :=
  ∀ (s : State) (w : CmdWord), Inv s → s.mode = .idle → decode w = .ok .transmit → s.env = [.present w, .present w] →
    levels ((1 + s.params.duration) + (1 + s.params.duration)) s =
      (false :: transmitTrace s.params s.frameBytes) ++ (false :: transmitTrace s.params s.frameBytes) ∧
    ∃ t, runTicks ((1 + s.params.duration) + (1 + s.params.duration)) s = .next t ∧ t.fb = s.fb ∧ t.mode = s.mode ∧
      t.p = s.p ∧ t.k = s.k ∧ t.t = s.t ∧ t.sr = s.sr ∧ t.excl = s.excl ∧ t.dout = s.dout ∧ t.params = s.params

/-- R40: while a transmission runs no step but `RST` changes `FB`, and a store from anywhere else has no meaning. -/
def Obligations.BufferStableWhileBusy : Prop :=
  (∀ s t : State, s.mode ≠ .idle → s.rstAsserted = false → step s = .next t →
    t.fb = s.fb ∧ ∀ a, t.fbByte a = s.fbByte a) ∧
  (∀ (s : State) (a : Nat) (v : Byte) (rest : List Move), s.env = .writeFb a v :: rest →
    step s = .refused .foreignWrite)

/-- R22, R24, R92: while a transmission runs, what is presented at the port (or not) has no influence on the block. -/
def Obligations.BusyBlockIgnoresPort : Prop :=
  ∀ (s t : State) (e e' : List Move), Busy s →
    (∀ m ∈ e.head?, isPortMove m = true) → (∀ m ∈ e'.head?, isPortMove m = true) →
    step (s.setEnv e) = .next t → ∃ t', step (s.setEnv e') = .next t' ∧ block t' = block t

/-- R22, R24: while a transmission runs a word presented until accepted stays presented, and a word offered for one tick
is gone; every command shown then is held, not executed. -/
def Obligations.HeldCommandIsNeitherRunNorLost : Prop :=
  (∀ (s t : State) (w : CmdWord) (rest : List Move), Busy s → s.env = .present w :: rest → step s = .next t →
    t.env = s.env) ∧
  (∀ (s t : State) (w : CmdWord) (rest : List Move), Busy s → s.env = .offer w :: rest → step s = .next t →
    t.env = rest) ∧
  (∀ (i : Instr) (s : State), Busy s → exec i s = quietTick s)

/-- R101, R102: `EXCL` rises only where TRANSMIT or CLEARSHOW is accepted, and falls only at the end of the latch delay,
with `MODE` returning to IDLE, or by `RST`. -/
def Obligations.ExclusionTakenAndReleased : Prop :=
  ∀ s t : State, step s = .next t →
    (s.excl = false → t.excl = true → s.mode = .idle ∧ ∃ w, shownWord s = some w ∧ startsFrame w = true) ∧
    (s.excl = true → t.excl = false →
      (s.mode = .latch ∧ s.params.tLatch ≤ s.t + 1 ∧ t.mode = .idle) ∨ s.rstAsserted = true)

/-- R16: the host's effective enable is its own enable masked exactly while a transmission runs, so nothing has to be
saved or restored. -/
def Obligations.ExclusionMasksHostEnable : Prop :=
  ∀ (s : State) (own : Bool), Inv s → s.rstAsserted = false →
    s.effectiveEnable own = (own && decide (s.mode = .idle))

/-- R19: `FRAMES` changes only in the tick the latch delay ends, by the `3N` bytes of `FB`. -/
def Obligations.FramesGrowOnlyAtLatchEnd : Prop :=
  ∀ s t : State, step s = .next t →
    t.frames = s.frames ∨
    (s.mode = .latch ∧ s.params.tLatch ≤ s.t + 1 ∧ s.rstAsserted = false ∧ t.frames = s.frames ++ [s.frameBytes])

/-! ### The wire -/

/-- R96: a symbol is exactly `TBIT` ticks, HIGH in the first `T1H` or `T0H` and LOW in the rest; it begins HIGH and ends
LOW. -/
def Obligations.SymbolIsHighThenLow : Prop :=
  ∀ (c : Params) (v : Bool), c.valid = true →
    (emitBit c v).length = c.tBit ∧
    (∀ j, j < c.tBit → (emitBit c v)[j]? = some (decide (j < if v then c.t1h else c.t0h))) ∧
    (emitBit c v).head? = some true ∧ (emitBit c v).getLast? = some false

/-- R32: the frame of a state is `24 * N` bits, bit `j` being bit `7 - j mod 8` of `FB[j div 8]`, and it is sent as
their symbols one after the other (R99), `24 * N * TBIT` ticks in all. -/
def Obligations.FrameSendsBitsInWireOrder : Prop :=
  ∀ s : State, s.params.valid = true →
    (frameBits s.frameBytes).length = 24 * s.params.ledCount ∧
    (∀ j, j < 24 * s.params.ledCount →
      (frameBits s.frameBytes)[j]? = some ((s.fbByte (j / 8)).getLsbD (7 - j % 8))) ∧
    emitFrame s.params s.frameBytes = (frameBits s.frameBytes).flatMap (emitBit s.params) ∧
    (emitFrame s.params s.frameBytes).length = 24 * s.params.ledCount * s.params.tBit

/-- R97: rising edge `j` of a transmission is at tick `TLEAD + j * TBIT`, whatever the data, and there are no others. -/
def Obligations.RisingEdgesOnePeriodApart : Prop :=
  ∀ (c : Params) (bytes : List Byte), c.valid = true →
    risingEdges (transmitTrace c bytes) = (List.range (8 * bytes.length)).map (fun j => c.tLead + j * c.tBit)

/-- R108: reading the trace of a complete transmission back gives the bytes that were sent. -/
def Obligations.TraceReadsBack : Prop :=
  ∀ (c : Params) (bytes : List Byte), c.valid = true → readBack c (transmitTrace c bytes) = bytes

/-- R100, R147: the trace of a transmission is the lead-in, then a rising edge, and it ends with at least
`TBIT - T1H + TLATCH` LOW ticks after its last HIGH tick. -/
def Obligations.LineRestsLowAfterFrame : Prop :=
  ∀ (c : Params) (bytes : List Byte), c.valid = true → bytes ≠ [] →
    ∃ (body : Trace) (n : Nat), transmitTrace c bytes = emit false c.tLead ++ body ++ emit false n ∧
      body.head? = some true ∧ body.getLast? = some true ∧ c.tBit - c.t1h + c.tLatch ≤ n

/-! ### The resolver -/

/-- R73: each channel of the result is the palette's channel times the brightness, divided by 255 and truncated; it
never exceeds the palette's channel; brightness 0 gives 0 and brightness 255 gives the channel itself. -/
def Obligations.ResolverScalesByBrightness : Prop :=
  (∀ (pal : Palette) (index s : Byte), index.toNat ≤ 7 →
    (resolveColor pal index s).r.toNat = (paletteEntry pal index.toNat).r.toNat * s.toNat / 255 ∧
    (resolveColor pal index s).g.toNat = (paletteEntry pal index.toNat).g.toNat * s.toNat / 255 ∧
    (resolveColor pal index s).b.toNat = (paletteEntry pal index.toNat).b.toNat * s.toNat / 255) ∧
  (∀ p s : Byte, (scaleChannel p s).toNat = p.toNat * s.toNat / 255 ∧ (scaleChannel p s).toNat ≤ p.toNat) ∧
  (∀ p : Byte, scaleChannel p 0 = 0 ∧ scaleChannel p 255 = p)

/-- R72: a colour index above 7 gives what index 0 gives, and that is off. -/
def Obligations.ResolverCoercesBadIndex : Prop :=
  ∀ (pal : Palette) (index s : Byte),
    (7 < index.toNat → resolveColor pal index s = resolveColor pal 0 s) ∧ resolveColor pal 0 s = Pixel.off

/-- R74: the product fits 16 bits, and the result is monotone in the brightness and in the palette's channel. -/
def Obligations.ScalingIsMonotone : Prop :=
  (∀ p s : Byte, p.toNat * s.toNat < 65536) ∧
  (∀ p s s' : Byte, s.toNat ≤ s'.toNat → (scaleChannel p s).toNat ≤ (scaleChannel p s').toNat) ∧
  (∀ p p' s : Byte, p.toNat ≤ p'.toNat → (scaleChannel p s).toNat ≤ (scaleChannel p' s).toNat)

/-- R75, R60: SETCOLOR is the resolver and then SETPIXEL; a bad colour index writes the off pixel, a bad pixel index
writes nothing. -/
def Obligations.SetcolorResolvesThenWrites : Prop :=
  ∀ (pal : Palette) (idx cidx bright : Nat) (s : State), Ready s → idx ≤ 255 → cidx ≤ 255 → bright ≤ 255 →
    ∃ i : Instr, expandLine pal (.setcolor idx cidx bright) = some [i] ∧
      (idx < s.params.ledCount → ∃ t, exec i s = .next t ∧
        t.pixel idx = resolveColor pal (BitVec.ofNat 8 cidx) (BitVec.ofNat 8 bright) ∧
        (7 < cidx → t.pixel idx = Pixel.off)) ∧
      (s.params.ledCount ≤ idx → exec i s = .next s)

/-! ### The parameter record -/

/-- R6: the validity check in natural numbers is the predicate V1 to V6 with `ns(t) = t * 10^9 / F_CLK` an exact
rational. -/
def Obligations.ValidityIsExactRational : Prop :=
  ∀ c : Params, c.valid = true ↔
    (0 < c.t0h ∧ c.t0h < c.t1h ∧ c.t1h < c.tBit) ∧
    |(c.t0h : ℚ) * 10 ^ 9 / c.fClk - 400| ≤ 150 ∧ |(c.t1h : ℚ) * 10 ^ 9 / c.fClk - 800| ≤ 150 ∧
    |(c.tBit : ℚ) * 10 ^ 9 / c.fClk - 1250| ≤ (c.tolPeriodNs : ℚ) ∧ 300000 ≤ (c.tLatch : ℚ) * 10 ^ 9 / c.fClk ∧
    (1 ≤ c.ledCount ∧ c.ledCount ≤ 255)

/-- R6, R25: with an invalid record no command and no tick has a meaning. -/
def Obligations.InvalidRecordIsRefused : Prop :=
  ∀ s : State, s.params.valid = false →
    (∀ i : Instr, exec i s = .refused .invalidParameters) ∧ ∃ r, step s = .refused r

/-- R17, R7: no step writes the parameter record. -/
def Obligations.ParametersNeverChange : Prop :=
  ∀ s t : State, step s = .next t → t.params = s.params

/-! ### The whole machine -/

/-- A tick in which a word that decodes to a command is shown is `exec` of that command, on the state from which the
host's move has been taken: a word offered is always taken, a word presented only in IDLE. -/
def Obligations.StepRunsDecodedInstruction : Prop :=
  ∀ (s : State) (w : CmdWord) (i : Instr) (rest : List Move), decode w = .ok i →
    (s.env = .offer w :: rest → step s = exec i (s.setEnv rest)) ∧
    (s.env = .present w :: rest → s.mode = .idle → step s = exec i (s.setEnv rest)) ∧
    (s.env = .present w :: rest → s.mode ≠ .idle → step s = exec i s)

/-- A table word placed at the port runs in the very next step, as the command it decodes to, in IDLE (log entry 5). -/
def Obligations.PlacedWordRunsNext : Prop :=
  ∀ (s : State) (w : Nat) (i : Instr), decodeTableWord 40 w = some i →
    step (s.withFetchWord 40 w) = exec i s.parked ∧ s.parked.mode = .idle ∧ (s.mode = .idle → s.parked = s)

/-- R24, R25: in IDLE with nothing presented the state does not change, and when the run is over it is a fixed point. -/
def Obligations.IdleBlockStaysPut : Prop :=
  (∀ (s : State) (rest : List Move), Ready s → s.env = .wait :: rest → step s = .next (s.setEnv rest)) ∧
  (∀ s : State, s.params.valid = true → s.over = true → step s = .next s)

/-- R140, R141, R127: `RST` overrides whatever is presented and whatever runs; the outputs are those of reset at once,
the sequencer and `EXCL` are cleared, `FB` is unspecified anew (a free value, log entry 3), `FRAMES` is not extended
and the parameters stay. -/
def Obligations.RstOverridesAndClears : Prop :=
  ∀ (s : State) (cmd : Option CmdWord) (rest : List Move), s.params.valid = true → s.env = .assertRst cmd :: rest →
    s.outputs = { cmdReady := true, dout := false, excl := false } ∧
    ∃ t, step s = .next t ∧ t.mode = .idle ∧ t.p = 0 ∧ t.k = 0 ∧ t.t = 0 ∧ t.sr = 0 ∧ t.excl = false ∧
      t.dout = false ∧ t.cmdReady = true ∧ (∀ a, t.fbByte a = Config.unspecifiedByte (s.epoch + 1) a) ∧
      t.params = s.params ∧ t.frames = s.frames ∧ t.env = rest

/-- R20, R140: the values the spec gives the state after reset, for every record; `FB` is unspecified (a free value, log
entry 3). -/
def Obligations.ResetLeavesSpecValues : Prop :=
  ∀ c : Params,
    (State.resetWith c).mode = .idle ∧ (State.resetWith c).p = 0 ∧ (State.resetWith c).k = 0 ∧
    (State.resetWith c).t = 0 ∧ (State.resetWith c).sr = 0 ∧ (State.resetWith c).excl = false ∧
    (State.resetWith c).dout = false ∧ (State.resetWith c).cmdReady = true ∧
    (∀ a, (State.resetWith c).fbByte a = Config.unspecifiedByte (State.resetWith c).epoch a) ∧
    (State.resetWith c).frames = []

/-- The invariant holds after reset, of the model's reset state and of every valid record's (R21). -/
def Obligations.ResetMeetsInvariant : Prop :=
  Inv State.reset ∧ ∀ c : Params, c.valid = true → Inv (State.resetWith c)

/-- R21: every step keeps the invariant, whatever the host and the environment do. -/
def Obligations.StepKeepsInvariant : Prop :=
  ∀ s t : State, Inv s → step s = .next t → Inv t

/-- R104 with R14: in every state that meets the invariant `DOUT` is HIGH exactly in SEND while `T` is below the HIGH
ticks of bit `7 - K` of `FB[P]`. -/
def Obligations.DoutFollowsBufferBit : Prop :=
  ∀ s : State, Inv s →
    (s.dout = true ↔ s.mode = .send ∧ s.t < s.params.highTicks ((s.fbByte s.p).getLsbD (7 - s.k.val)))

/-- R25, R35, R120: no step faults while `P` is within the buffer, which the invariant says it always is; in particular
the sequencer never addresses a location `>= 3N`. -/
def Obligations.StepNeverFaults : Prop :=
  ∀ (s : State) (r : Fault), s.p < s.params.fbBytes → step s ≠ .fault r

/-- R22, R25, R106: with a valid record and `P` within the buffer the machine goes on in every state, unless the
environment breaks an obligation of R132: no stuck state. -/
def Obligations.LawfulStepAnswers : Prop :=
  ∀ s : State, s.params.valid = true → s.p < s.params.fbBytes → (∀ m ∈ s.env.head?, breaksObligation s m = false) →
    ∃ t, step s = .next t

/-- R132: a run that breaks an obligation has no meaning. -/
def Obligations.BrokenObligationIsRefused : Prop :=
  ∀ (s : State) (rest : List Move),
    (s.env = .stallClock :: rest → s.mode ≠ .idle → step s = .refused .clockStalled) ∧
    (s.env = .takeInterrupt :: rest → s.excl = true → step s = .refused .exclusionIgnored) ∧
    (∀ (a : Nat) (v : Byte), s.env = .writeFb a v :: rest → step s = .refused .foreignWrite)

/-- R25 (the spec's decisions D16, D31; log entry 8): every run of a finite list of port moves is over after finitely
many ticks, at most one tick and one transmission for each move, and what is left of a transmission already running.
-/
def Obligations.EveryRunIsOver : Prop :=
  ∀ s : State, Inv s → (∀ m ∈ s.env, isPortMove m = true) →
    ∃ n t, n ≤ ticksLeft s + s.env.length * (1 + s.params.duration) ∧ runTicks n s = .next t ∧ t.over = true
end

