-- ==== Sys2Proof/Laws/State.lean ====
section
/-! SUPPORT. What each named update does to each field of State, and what the reads of a state depend on. -/

namespace Sys2Proof.Machine

variable (s : State)

/-! ### setFb -/

@[simp] theorem State.setFb_params (m : Memory) : (s.setFb m).params = s.params := rfl
@[simp] theorem State.setFb_fb (m : Memory) : (s.setFb m).fb = m := rfl
@[simp] theorem State.setFb_dout (m : Memory) : (s.setFb m).dout = s.dout := rfl
@[simp] theorem State.setFb_mode (m : Memory) : (s.setFb m).mode = s.mode := rfl
@[simp] theorem State.setFb_p (m : Memory) : (s.setFb m).p = s.p := rfl
@[simp] theorem State.setFb_k (m : Memory) : (s.setFb m).k = s.k := rfl
@[simp] theorem State.setFb_t (m : Memory) : (s.setFb m).t = s.t := rfl
@[simp] theorem State.setFb_sr (m : Memory) : (s.setFb m).sr = s.sr := rfl
@[simp] theorem State.setFb_excl (m : Memory) : (s.setFb m).excl = s.excl := rfl
@[simp] theorem State.setFb_frames (m : Memory) : (s.setFb m).frames = s.frames := rfl
@[simp] theorem State.setFb_epoch (m : Memory) : (s.setFb m).epoch = s.epoch := rfl
@[simp] theorem State.setFb_env (m : Memory) : (s.setFb m).env = s.env := rfl

/-! ### setSeq -/

@[simp] theorem State.setSeq_params (mode : Mode) (p : Nat) (k : Fin 8) (t : Nat) : (s.setSeq mode p k t).params = s.params := rfl
@[simp] theorem State.setSeq_fb (mode : Mode) (p : Nat) (k : Fin 8) (t : Nat) : (s.setSeq mode p k t).fb = s.fb := rfl
@[simp] theorem State.setSeq_dout (mode : Mode) (p : Nat) (k : Fin 8) (t : Nat) : (s.setSeq mode p k t).dout = s.dout := rfl
@[simp] theorem State.setSeq_mode (mode : Mode) (p : Nat) (k : Fin 8) (t : Nat) : (s.setSeq mode p k t).mode = mode := rfl
@[simp] theorem State.setSeq_p (mode : Mode) (p : Nat) (k : Fin 8) (t : Nat) : (s.setSeq mode p k t).p = p := rfl
@[simp] theorem State.setSeq_k (mode : Mode) (p : Nat) (k : Fin 8) (t : Nat) : (s.setSeq mode p k t).k = k := rfl
@[simp] theorem State.setSeq_t (mode : Mode) (p : Nat) (k : Fin 8) (t : Nat) : (s.setSeq mode p k t).t = t := rfl
@[simp] theorem State.setSeq_sr (mode : Mode) (p : Nat) (k : Fin 8) (t : Nat) : (s.setSeq mode p k t).sr = s.sr := rfl
@[simp] theorem State.setSeq_excl (mode : Mode) (p : Nat) (k : Fin 8) (t : Nat) : (s.setSeq mode p k t).excl = s.excl := rfl
@[simp] theorem State.setSeq_frames (mode : Mode) (p : Nat) (k : Fin 8) (t : Nat) : (s.setSeq mode p k t).frames = s.frames := rfl
@[simp] theorem State.setSeq_epoch (mode : Mode) (p : Nat) (k : Fin 8) (t : Nat) : (s.setSeq mode p k t).epoch = s.epoch := rfl
@[simp] theorem State.setSeq_env (mode : Mode) (p : Nat) (k : Fin 8) (t : Nat) : (s.setSeq mode p k t).env = s.env := rfl

/-! ### setSr -/

@[simp] theorem State.setSr_params (v : Byte) : (s.setSr v).params = s.params := rfl
@[simp] theorem State.setSr_fb (v : Byte) : (s.setSr v).fb = s.fb := rfl
@[simp] theorem State.setSr_dout (v : Byte) : (s.setSr v).dout = s.dout := rfl
@[simp] theorem State.setSr_mode (v : Byte) : (s.setSr v).mode = s.mode := rfl
@[simp] theorem State.setSr_p (v : Byte) : (s.setSr v).p = s.p := rfl
@[simp] theorem State.setSr_k (v : Byte) : (s.setSr v).k = s.k := rfl
@[simp] theorem State.setSr_t (v : Byte) : (s.setSr v).t = s.t := rfl
@[simp] theorem State.setSr_sr (v : Byte) : (s.setSr v).sr = v := rfl
@[simp] theorem State.setSr_excl (v : Byte) : (s.setSr v).excl = s.excl := rfl
@[simp] theorem State.setSr_frames (v : Byte) : (s.setSr v).frames = s.frames := rfl
@[simp] theorem State.setSr_epoch (v : Byte) : (s.setSr v).epoch = s.epoch := rfl
@[simp] theorem State.setSr_env (v : Byte) : (s.setSr v).env = s.env := rfl

/-! ### setEnv -/

@[simp] theorem State.setEnv_params (env : List Move) : (s.setEnv env).params = s.params := rfl
@[simp] theorem State.setEnv_fb (env : List Move) : (s.setEnv env).fb = s.fb := rfl
@[simp] theorem State.setEnv_dout (env : List Move) : (s.setEnv env).dout = s.dout := rfl
@[simp] theorem State.setEnv_mode (env : List Move) : (s.setEnv env).mode = s.mode := rfl
@[simp] theorem State.setEnv_p (env : List Move) : (s.setEnv env).p = s.p := rfl
@[simp] theorem State.setEnv_k (env : List Move) : (s.setEnv env).k = s.k := rfl
@[simp] theorem State.setEnv_t (env : List Move) : (s.setEnv env).t = s.t := rfl
@[simp] theorem State.setEnv_sr (env : List Move) : (s.setEnv env).sr = s.sr := rfl
@[simp] theorem State.setEnv_excl (env : List Move) : (s.setEnv env).excl = s.excl := rfl
@[simp] theorem State.setEnv_frames (env : List Move) : (s.setEnv env).frames = s.frames := rfl
@[simp] theorem State.setEnv_epoch (env : List Move) : (s.setEnv env).epoch = s.epoch := rfl
@[simp] theorem State.setEnv_env (env : List Move) : (s.setEnv env).env = env := rfl

/-! ### driveLine -/

@[simp] theorem State.driveLine_params : (s.driveLine).params = s.params := rfl
@[simp] theorem State.driveLine_fb : (s.driveLine).fb = s.fb := rfl
@[simp] theorem State.driveLine_dout : (s.driveLine).dout = s.level := rfl
@[simp] theorem State.driveLine_mode : (s.driveLine).mode = s.mode := rfl
@[simp] theorem State.driveLine_p : (s.driveLine).p = s.p := rfl
@[simp] theorem State.driveLine_k : (s.driveLine).k = s.k := rfl
@[simp] theorem State.driveLine_t : (s.driveLine).t = s.t := rfl
@[simp] theorem State.driveLine_sr : (s.driveLine).sr = s.sr := rfl
@[simp] theorem State.driveLine_excl : (s.driveLine).excl = s.excl := rfl
@[simp] theorem State.driveLine_frames : (s.driveLine).frames = s.frames := rfl
@[simp] theorem State.driveLine_epoch : (s.driveLine).epoch = s.epoch := rfl
@[simp] theorem State.driveLine_env : (s.driveLine).env = s.env := rfl

/-! ### recordFrame -/

@[simp] theorem State.recordFrame_params : (s.recordFrame).params = s.params := rfl
@[simp] theorem State.recordFrame_fb : (s.recordFrame).fb = s.fb := rfl
@[simp] theorem State.recordFrame_dout : (s.recordFrame).dout = s.dout := rfl
@[simp] theorem State.recordFrame_mode : (s.recordFrame).mode = s.mode := rfl
@[simp] theorem State.recordFrame_p : (s.recordFrame).p = s.p := rfl
@[simp] theorem State.recordFrame_k : (s.recordFrame).k = s.k := rfl
@[simp] theorem State.recordFrame_t : (s.recordFrame).t = s.t := rfl
@[simp] theorem State.recordFrame_sr : (s.recordFrame).sr = s.sr := rfl
@[simp] theorem State.recordFrame_excl : (s.recordFrame).excl = s.excl := rfl
@[simp] theorem State.recordFrame_frames : (s.recordFrame).frames = s.frames ++ [s.frameBytes] := rfl
@[simp] theorem State.recordFrame_epoch : (s.recordFrame).epoch = s.epoch := rfl
@[simp] theorem State.recordFrame_env : (s.recordFrame).env = s.env := rfl

/-! ### acquire -/

@[simp] theorem State.acquire_params : (s.acquire).params = s.params := rfl
@[simp] theorem State.acquire_fb : (s.acquire).fb = s.fb := rfl
@[simp] theorem State.acquire_dout : (s.acquire).dout = s.dout := rfl
@[simp] theorem State.acquire_mode : (s.acquire).mode = s.mode := rfl
@[simp] theorem State.acquire_p : (s.acquire).p = s.p := rfl
@[simp] theorem State.acquire_k : (s.acquire).k = s.k := rfl
@[simp] theorem State.acquire_t : (s.acquire).t = s.t := rfl
@[simp] theorem State.acquire_sr : (s.acquire).sr = s.sr := rfl
@[simp] theorem State.acquire_excl : (s.acquire).excl = true := rfl
@[simp] theorem State.acquire_frames : (s.acquire).frames = s.frames := rfl
@[simp] theorem State.acquire_epoch : (s.acquire).epoch = s.epoch := rfl
@[simp] theorem State.acquire_env : (s.acquire).env = s.env := rfl

/-! ### release -/

@[simp] theorem State.release_params : (s.release).params = s.params := rfl
@[simp] theorem State.release_fb : (s.release).fb = s.fb := rfl
@[simp] theorem State.release_dout : (s.release).dout = s.dout := rfl
@[simp] theorem State.release_mode : (s.release).mode = s.mode := rfl
@[simp] theorem State.release_p : (s.release).p = s.p := rfl
@[simp] theorem State.release_k : (s.release).k = s.k := rfl
@[simp] theorem State.release_t : (s.release).t = s.t := rfl
@[simp] theorem State.release_sr : (s.release).sr = s.sr := rfl
@[simp] theorem State.release_excl : (s.release).excl = false := rfl
@[simp] theorem State.release_frames : (s.release).frames = s.frames := rfl
@[simp] theorem State.release_epoch : (s.release).epoch = s.epoch := rfl
@[simp] theorem State.release_env : (s.release).env = s.env := rfl

/-! ### afterReset -/

@[simp] theorem State.afterReset_params : (s.afterReset).params = s.params := rfl
@[simp] theorem State.afterReset_fb : (s.afterReset).fb = [] := rfl
@[simp] theorem State.afterReset_dout : (s.afterReset).dout = false := rfl
@[simp] theorem State.afterReset_mode : (s.afterReset).mode = .idle := rfl
@[simp] theorem State.afterReset_p : (s.afterReset).p = 0 := rfl
@[simp] theorem State.afterReset_k : (s.afterReset).k = 0 := rfl
@[simp] theorem State.afterReset_t : (s.afterReset).t = 0 := rfl
@[simp] theorem State.afterReset_sr : (s.afterReset).sr = 0 := rfl
@[simp] theorem State.afterReset_excl : (s.afterReset).excl = false := rfl
@[simp] theorem State.afterReset_frames : (s.afterReset).frames = s.frames := rfl
@[simp] theorem State.afterReset_epoch : (s.afterReset).epoch = s.epoch + 1 := rfl
@[simp] theorem State.afterReset_env : (s.afterReset).env = s.env := rfl

/-! ### Reads -/

/-- A byte of `FB` depends on what was written and on the reset's draw alone. -/
theorem State.fbByte_congr {s u : State} (hfb : s.fb = u.fb) (he : s.epoch = u.epoch) (a : Nat) :
    s.fbByte a = u.fbByte a := by
  simp [State.fbByte, hfb, he]

theorem State.frameBytes_congr {s u : State} (hfb : s.fb = u.fb) (he : s.epoch = u.epoch)
    (hp : s.params = u.params) : s.frameBytes = u.frameBytes := by
  simp [State.frameBytes, State.fbByte, hfb, he, hp]

@[simp] theorem State.setSeq_fbByte (mode : Mode) (p : Nat) (k : Fin 8) (t : Nat) (a : Nat) : (s.setSeq mode p k t).fbByte a = s.fbByte a := rfl
@[simp] theorem State.setSeq_frameBytes (mode : Mode) (p : Nat) (k : Fin 8) (t : Nat) : (s.setSeq mode p k t).frameBytes = s.frameBytes := rfl
@[simp] theorem State.setSr_fbByte (v : Byte) (a : Nat) : (s.setSr v).fbByte a = s.fbByte a := rfl
@[simp] theorem State.setSr_frameBytes (v : Byte) : (s.setSr v).frameBytes = s.frameBytes := rfl
@[simp] theorem State.setEnv_fbByte (env : List Move) (a : Nat) : (s.setEnv env).fbByte a = s.fbByte a := rfl
@[simp] theorem State.setEnv_frameBytes (env : List Move) : (s.setEnv env).frameBytes = s.frameBytes := rfl
@[simp] theorem State.driveLine_fbByte (a : Nat) : (s.driveLine).fbByte a = s.fbByte a := rfl
@[simp] theorem State.driveLine_frameBytes : (s.driveLine).frameBytes = s.frameBytes := rfl
@[simp] theorem State.recordFrame_fbByte (a : Nat) : (s.recordFrame).fbByte a = s.fbByte a := rfl
@[simp] theorem State.recordFrame_frameBytes : (s.recordFrame).frameBytes = s.frameBytes := rfl
@[simp] theorem State.acquire_fbByte (a : Nat) : (s.acquire).fbByte a = s.fbByte a := rfl
@[simp] theorem State.acquire_frameBytes : (s.acquire).frameBytes = s.frameBytes := rfl
@[simp] theorem State.release_fbByte (a : Nat) : (s.release).fbByte a = s.fbByte a := rfl
@[simp] theorem State.release_frameBytes : (s.release).frameBytes = s.frameBytes := rfl

@[simp] theorem State.setEnv_level (env : List Move) : (s.setEnv env).level = s.level := rfl

@[simp] theorem State.setEnv_cmdReady (env : List Move) : (s.setEnv env).cmdReady = s.cmdReady := rfl

@[simp] theorem State.setEnv_setEnv (env env' : List Move) : (s.setEnv env).setEnv env' = s.setEnv env' := rfl

theorem State.cmdReady_iff : s.cmdReady = true ↔ s.mode = .idle := by simp [State.cmdReady]

theorem State.cmdReady_of_idle {s : State} (h : s.mode = .idle) : s.cmdReady = true := s.cmdReady_iff.2 h

theorem State.cmdReady_of_busy {s : State} (h : s.mode ≠ .idle) : s.cmdReady = false := by simp [State.cmdReady, h]

/-- Outside SEND the line is LOW (R104). -/
theorem State.level_of_not_send {s : State} (h : s.mode ≠ .send) : s.level = false := by simp [State.level, h]

@[simp] theorem State.frameBytes_length : s.frameBytes.length = s.params.fbBytes := by simp [State.frameBytes]

end Sys2Proof.Machine
end

