-- ==== Sys2Proof/Laws/Memory.lean ====
section
/-! SUPPORT. The frame buffer's operations: what a read sees after each write, and that each keeps the canonical
form. -/

namespace Sys2Proof.Machine

/-- A read after one store: the value stored at its address, everything else as before. -/
@[simp] theorem Memory.find_write (m : Memory) (a : Nat) (v : Byte) (x : Nat) :
    (m.write a v).find x = if x = a then some v else m.find x := by
  induction m with
  | nil => simp [Memory.write, Memory.find]
  | cons c rest ih =>
    obtain ⟨b, u⟩ := c
    unfold Memory.write
    split
    · simp [Memory.find]
    · split
      · subst_vars
        simp only [Memory.find]
        split <;> rfl
      · rename_i hab
        simp only [Memory.find, ih]
        by_cases hxa : x = a
        · subst hxa; simp [hab]
        · simp [hxa]

/-- A read after SETPIXEL's update (R82): the three bytes stored, in wire order, everything else as before. -/
theorem Memory.find_writeAll_pixelCells (m : Memory) (a : Nat) (r g b : Byte) (x : Nat) :
    (m.writeAll (pixelCells a r g b)).find x =
      if x = a then some g else if x = a + 1 then some r else if x = a + 2 then some b else m.find x := by
  simp only [pixelCells, Memory.writeAll, Memory.find_write]
  split_ifs <;> first | rfl | omega

theorem Memory.find_map_const (l : List Nat) (v : Byte) (x : Nat) :
    Memory.find (l.map (fun a => (a, v))) x = if x ∈ l then some v else none := by
  induction l with
  | nil => simp [Memory.find]
  | cons b rest ih => by_cases h : x = b <;> simp [Memory.find, ih, h]

/-- A read after INIT or CLEAR. -/
@[simp] theorem Memory.find_fill (size : Nat) (v : Byte) (x : Nat) :
    (Memory.fill size v).find x = if x < size then some v else none := by
  simp [Memory.fill, Memory.find_map_const]

theorem Memory.write_addresses {m : Memory} {a : Nat} {v : Byte} {c : Host.Cell} (h : c ∈ m.write a v) :
    c = (a, v) ∨ c ∈ m := by
  induction m with
  | nil => simpa [Memory.write] using h
  | cons d rest ih =>
    obtain ⟨b, u⟩ := d
    unfold Memory.write at h
    split at h
    · simpa using h
    · split at h
      · rcases List.mem_cons.1 h with h | h
        · exact .inl h
        · exact .inr (List.mem_cons_of_mem _ h)
      · rcases List.mem_cons.1 h with h | h
        · exact .inr (h ▸ List.mem_cons_self ..)
        · exact (ih h).imp id (List.mem_cons_of_mem _)

/-- A store below `size` keeps the canonical form. -/
theorem Memory.wf_write {m : Memory} {size a : Nat} (v : Byte) (h : m.wf size) (ha : a < size) :
    (m.write a v).wf size := by
  refine ⟨?_, fun c hc => ?_⟩
  · have hp := h.1
    clear h
    induction m with
    | nil => simp [Memory.write]
    | cons d rest ih =>
      obtain ⟨b, u⟩ := d
      obtain ⟨hb, hrest⟩ := List.pairwise_cons.1 hp
      unfold Memory.write
      split
      · rename_i hab
        refine List.pairwise_cons.2 ⟨fun c hc => ?_, hp⟩
        rcases List.mem_cons.1 hc with rfl | hc
        · exact hab
        · exact lt_trans hab (hb c hc)
      · split
        · subst_vars
          exact List.pairwise_cons.2 ⟨hb, hrest⟩
        · refine List.pairwise_cons.2 ⟨fun c hc => ?_, ih hrest⟩
          rcases Memory.write_addresses hc with rfl | hc
          · show b < a
            omega
          · exact hb c hc
  · rcases Memory.write_addresses hc with rfl | hc
    · exact ha
    · exact h.2 c hc

theorem Memory.wf_writeAll {m : Memory} {size : Nat} (cells : List Host.Cell) (h : m.wf size)
    (hc : ∀ c ∈ cells, c.1 < size) : (m.writeAll cells).wf size := by
  induction cells generalizing m with
  | nil => exact h
  | cons c rest ih =>
    exact ih (Memory.wf_write c.2 h (hc c (List.mem_cons_self ..))) fun d hd => hc d (List.mem_cons_of_mem _ hd)

/-- INIT and CLEAR leave a canonical buffer. -/
theorem Memory.wf_fill (size : Nat) (v : Byte) : (Memory.fill size v).wf size := by
  refine ⟨?_, ?_⟩
  · unfold Memory.fill
    rw [List.pairwise_map]
    exact List.pairwise_lt_range
  · intro c hc
    obtain ⟨a, ha, rfl⟩ := List.mem_map.1 hc
    exact List.mem_range.1 ha

/-- The index check is the unsigned comparison with `N` (R54). -/
theorem indexInRange_iff (c : Params) (idx : Byte) : indexInRange c idx = true ↔ idx.toNat < c.ledCount :=
  decide_eq_true_iff

theorem indexInRange_eq_false_iff (c : Params) (idx : Byte) : indexInRange c idx = false ↔ c.ledCount ≤ idx.toNat :=
  decide_eq_false_iff_not.trans Nat.not_lt

/-- SETPIXEL in range stays within the buffer (R84). -/
theorem pixelCells_below {c : Params} {idx r g b : Byte} (h : indexInRange c idx = true) :
    ∀ x ∈ pixelCells (pixelAddress idx) r g b, x.1 < c.fbBytes := by
  simp only [indexInRange, decide_eq_true_eq] at h
  simp only [pixelCells, pixelAddress, Params.fbBytes, List.mem_cons, List.not_mem_nil, or_false]
  rintro x (rfl | rfl | rfl) <;> dsimp only <;> omega

/-- Every byte reads 0 after INIT or CLEAR. -/
theorem State.fbByte_fill (s : State) (v : Byte) {a : Nat} (ha : a < s.params.fbBytes) :
    (s.setFb (Memory.fill s.params.fbBytes v)).fbByte a = v := by
  simp [State.fbByte, ha]

/-- What each byte reads after SETPIXEL's update. -/
theorem State.fbByte_pixelCells (s : State) (a : Nat) (r g b : Byte) (x : Nat) :
    (s.setFb (s.fb.writeAll (pixelCells a r g b))).fbByte x =
      if x = a then g else if x = a + 1 then r else if x = a + 2 then b else s.fbByte x := by
  simp only [State.fbByte, State.setFb_fb, Memory.find_writeAll_pixelCells, State.setFb_epoch]
  split_ifs <;> rfl

/-- The buffer right after reset is canonical. -/
theorem reset_fb_wf : State.reset.fb.wf State.reset.params.fbBytes := by
  simp [State.reset, State.resetWith, Memory.wf]

end Sys2Proof.Machine
end

