-- ==== Sys2Proof/Laws/Ops.lean ====
section
/-! SUPPORT. One lemma per shared operation that says everything it can do. -/

namespace Sys2Proof.Machine

/-! ### Validity (R6) -/

theorem Params.valid_order {c : Params} (h : c.valid = true) : 0 < c.t0h ∧ c.t0h < c.t1h ∧ c.t1h < c.tBit := by
  simp only [Params.valid, Params.v1, Bool.and_eq_true, decide_eq_true_eq] at h
  omega

theorem Params.valid_count {c : Params} (h : c.valid = true) : 1 ≤ c.ledCount ∧ c.ledCount ≤ 255 := by
  simp only [Params.valid, Params.v6, Bool.and_eq_true, decide_eq_true_eq] at h
  omega

theorem Params.valid_fbBytes {c : Params} (h : c.valid = true) : 3 ≤ c.fbBytes := by
  have := Params.valid_count h
  simp only [Params.fbBytes]
  omega

/-- A valid record has a clock (V1 with V2). -/
theorem Params.valid_clock {c : Params} (h : c.valid = true) : 0 < c.fClk := by
  have ho := (Params.valid_order h).1
  simp only [Params.valid, Params.v2, Params.within, Bool.and_eq_true, decide_eq_true_eq] at h
  omega

theorem Params.valid_latch {c : Params} (h : c.valid = true) : 0 < c.tLatch := by
  have hf := Params.valid_clock h
  simp only [Params.valid, Params.v5, Bool.and_eq_true, decide_eq_true_eq] at h
  omega

theorem Params.highTicks_pos {c : Params} (h : c.valid = true) (v : Bool) : 0 < c.highTicks v := by
  have := Params.valid_order h
  cases v <;> simp [Params.highTicks] <;> omega

theorem Params.highTicks_lt {c : Params} (h : c.valid = true) (v : Bool) : c.highTicks v < c.tBit := by
  have := Params.valid_order h
  cases v <;> simp [Params.highTicks] <;> omega

/-! ### The handshake (R22) -/

theorem withValidParams_of_valid {s : State} (h : s.params.valid = true) (body : Result) :
    withValidParams s body = body := by simp [withValidParams, h]

theorem withValidParams_next {s t : State} {body : Result} (h : withValidParams s body = .next t) :
    s.params.valid = true ∧ body = .next t := by
  unfold withValidParams at h
  split at h
  · exact ⟨‹_›, h⟩
  · cases h

/-- A command shown in IDLE is executed. -/
theorem onCommand_idle {s : State} (hv : s.params.valid = true) (hm : s.mode = .idle) (effect : State → Result) :
    onCommand s effect = effect s := by
  simp [onCommand, State.cmdReady, hm, withValidParams, hv]

/-- A command shown while a transmission runs is held: the tick is a quiet one. -/
theorem onCommand_busy {s : State} (hm : s.mode ≠ .idle) (effect : State → Result) :
    onCommand s effect = quietTick s := by
  simp [onCommand, State.cmdReady, hm]

/-- Whatever the command, an answer comes from its effect in IDLE or from the sequencer. -/
theorem onCommand_next {s t : State} {effect : State → Result} (h : onCommand s effect = .next t) :
    s.params.valid = true ∧ ((s.mode = .idle ∧ effect s = .next t) ∨ (s.mode ≠ .idle ∧ advance s = .next t)) := by
  unfold onCommand at h
  split at h
  · rename_i hr
    obtain ⟨hv, he⟩ := withValidParams_next h
    exact ⟨hv, .inl ⟨s.cmdReady_iff.1 hr, he⟩⟩
  · rename_i hr
    obtain ⟨hv, he⟩ := withValidParams_next h
    exact ⟨hv, .inr ⟨fun hm => hr (s.cmdReady_iff.2 hm), he⟩⟩

/-- A command in IDLE with an invalid record, or a quiet tick with one, is refused (R6). -/
theorem onCommand_invalid {s : State} (hv : ¬ s.params.valid = true) (effect : State → Result) :
    onCommand s effect = .refused .invalidParameters := by
  unfold onCommand quietTick withValidParams
  simp [hv]

/-! ### The sequencer (R104) -/

/-- The state at the first tick of byte `p`. -/
def State.atByte (s : State) (p : Nat) : State := ((s.setSeq .send p 0 0).setSr (s.fbByte p)).driveLine

theorem beginByte_of_lt {s : State} {p : Nat} (h : p < s.params.fbBytes) : beginByte s p = .next (s.atByte p) := by
  simp [beginByte, withByte, State.atByte, h]

theorem beginByte_next {s t : State} {p : Nat} (h : beginByte s p = .next t) :
    p < s.params.fbBytes ∧ t = s.atByte p := by
  by_cases hp : p < s.params.fbBytes
  · rw [beginByte_of_lt hp] at h
    injection h with h
    exact ⟨hp, h.symm⟩
  · simp [beginByte, withByte, hp] at h

/-- The state after TRANSMIT is accepted. -/
def State.started (s : State) : State :=
  if s.params.tLead = 0 then s.acquire.atByte 0 else ((s.acquire.setSeq .lead 0 0 0).setSr 0).driveLine

theorem startFrame_of_valid {s : State} (hv : s.params.valid = true) : startFrame s = .next s.started := by
  have h3 := Params.valid_fbBytes hv
  unfold startFrame State.started
  split
  · exact beginByte_of_lt (by simp; omega)
  · rfl

theorem startFrame_next {s t : State} (h : startFrame s = .next t) : t = s.started := by
  unfold startFrame at h
  unfold State.started
  split at h
  · rw [if_pos ‹_›]
    exact (beginByte_next h).2
  · injection h with h
    rw [if_neg ‹_›]
    exact h.symm

/-- Everything the sequencer's step can do: nothing in IDLE; count, or begin the first byte, in LEAD; count, next bit,
next byte, or the latch delay, in SEND; count, or return to IDLE, in LATCH. -/
theorem advance_next {s t : State} (h : advance s = .next t) :
    (s.mode = .idle ∧ t = s) ∨
    (s.mode = .lead ∧ s.t + 1 < s.params.tLead ∧ t = (s.setSeq .lead s.p s.k (s.t + 1)).driveLine) ∨
    (s.mode = .lead ∧ s.params.tLead ≤ s.t + 1 ∧ s.p < s.params.fbBytes ∧ t = s.atByte s.p) ∨
    (s.mode = .send ∧ s.t + 1 < s.params.tBit ∧ t = (s.setSeq .send s.p s.k (s.t + 1)).driveLine) ∨
    (s.mode = .send ∧ s.params.tBit ≤ s.t + 1 ∧ s.k.val < 7 ∧
      t = ((s.setSeq .send s.p (s.k + 1) 0).setSr (s.sr <<< 1)).driveLine) ∨
    (s.mode = .send ∧ s.params.tBit ≤ s.t + 1 ∧ s.k.val = 7 ∧ s.p + 1 < s.params.fbBytes ∧ t = s.atByte (s.p + 1)) ∨
    (s.mode = .send ∧ s.params.tBit ≤ s.t + 1 ∧ s.k.val = 7 ∧ s.params.fbBytes ≤ s.p + 1 ∧
      t = ((s.setSeq .latch 0 0 0).setSr 0).driveLine) ∨
    (s.mode = .latch ∧ s.t + 1 < s.params.tLatch ∧ t = (s.setSeq .latch s.p s.k (s.t + 1)).driveLine) ∨
    (s.mode = .latch ∧ s.params.tLatch ≤ s.t + 1 ∧
      t = ((((s.setSeq .idle 0 0 0).setSr 0).release).recordFrame.driveLine)) := by
  unfold advance at h
  split at h
  · injection h with h
    exact .inl ⟨‹_›, h.symm⟩
  · unfold tickLead at h
    split at h
    · injection h with h
      exact .inr (.inl ⟨‹_›, ‹_›, h.symm⟩)
    · exact .inr (.inr (.inl ⟨‹_›, by omega, beginByte_next h⟩))
  · unfold tickSend at h
    have hk := s.k.isLt
    split at h
    · injection h with h
      exact .inr (.inr (.inr (.inl ⟨‹_›, ‹_›, h.symm⟩)))
    · split at h
      · injection h with h
        exact .inr (.inr (.inr (.inr (.inl ⟨‹_›, by omega, ‹_›, h.symm⟩))))
      · split at h
        · exact .inr (.inr (.inr (.inr (.inr (.inl ⟨‹_›, by omega, by omega, ‹_›, (beginByte_next h).2⟩)))))
        · injection h with h
          exact .inr (.inr (.inr (.inr (.inr (.inr (.inl ⟨‹_›, by omega, by omega, by omega, h.symm⟩))))))
  · unfold tickLatch at h
    split at h
    · injection h with h
      exact .inr (.inr (.inr (.inr (.inr (.inr (.inr (.inl ⟨‹_›, ‹_›, h.symm⟩)))))))
    · injection h with h
      exact .inr (.inr (.inr (.inr (.inr (.inr (.inr (.inr ⟨‹_›, by omega, h.symm⟩)))))))

@[simp] theorem State.atByte_params (s : State) (p : Nat) : (s.atByte p).params = s.params := rfl
@[simp] theorem State.atByte_fb (s : State) (p : Nat) : (s.atByte p).fb = s.fb := rfl
@[simp] theorem State.atByte_mode (s : State) (p : Nat) : (s.atByte p).mode = .send := rfl
@[simp] theorem State.atByte_p (s : State) (p : Nat) : (s.atByte p).p = p := rfl
@[simp] theorem State.atByte_k (s : State) (p : Nat) : (s.atByte p).k = 0 := rfl
@[simp] theorem State.atByte_t (s : State) (p : Nat) : (s.atByte p).t = 0 := rfl
@[simp] theorem State.atByte_sr (s : State) (p : Nat) : (s.atByte p).sr = s.fbByte p := rfl
@[simp] theorem State.atByte_excl (s : State) (p : Nat) : (s.atByte p).excl = s.excl := rfl
@[simp] theorem State.atByte_frames (s : State) (p : Nat) : (s.atByte p).frames = s.frames := rfl
@[simp] theorem State.atByte_epoch (s : State) (p : Nat) : (s.atByte p).epoch = s.epoch := rfl
@[simp] theorem State.atByte_env (s : State) (p : Nat) : (s.atByte p).env = s.env := rfl
@[simp] theorem State.atByte_fbByte (s : State) (p a : Nat) : (s.atByte p).fbByte a = s.fbByte a := rfl

/-! ### One tick -/

/-- Everything a tick can do, by the host's and the environment's move. -/
theorem tick_eq (s : State) :
    tick s = match s.env with
      | [] => quietTick s
      | .wait :: rest => quietTick (s.setEnv rest)
      | .offer w :: rest => runWord w (s.setEnv rest)
      | .present w :: rest => runWord w (s.afterPresent rest)
      | .assertRst _ :: rest => resetTick (s.setEnv rest)
      | .takeInterrupt :: rest => interruptTick (s.setEnv rest)
      | .stallClock :: rest => stalledTick (s.setEnv rest)
      | .writeFb _ _ :: _ => .refused .foreignWrite := rfl

end Sys2Proof.Machine
end

