-- ==== Sys2Proof/Laws/PerInstr.lean ====
section
/-! SUPPORT. A statement per command, by one lemma per constructor: its word carries the opcode of R51, and only the
bits the command uses (R52). -/

namespace Sys2Proof.Laws.EncodedWord

/-- The command's word has its opcode in bits 39:32, and zeros wherever the command ignores the word (R50 to R52). -/
def Statement (i : Instr) : Prop := fieldOp (encode i) = i.opcode ∧ encode i &&& i.usedMask = encode i

theorem init : Statement .init := ⟨by decide, by decide⟩

theorem setpixel (idx r g b : Byte) : Statement (.setpixel idx r g b) := by
  refine ⟨?_, ?_⟩
  · apply BitVec.eq_of_getLsbD_eq
    intro j hj
    simp only [fieldOp, encode, packWord, Instr.opcode, BitVec.getLsbD_extractLsb', BitVec.getLsbD_append]
    simp [hj, show ¬ 32 + j < 8 by omega, show ¬ 32 + j - 8 < 8 by omega, show ¬ 32 + j - 8 - 8 < 8 by omega,
      show ¬ 32 + j - 8 - 8 - 8 < 8 by omega, show 32 + j - 8 - 8 - 8 - 8 = j by omega]
  · exact BitVec.and_allOnes (x := encode (.setpixel idx r g b))

theorem clear : Statement .clear := ⟨by decide, by decide⟩

theorem transmit : Statement .transmit := ⟨by decide, by decide⟩

theorem clearshow : Statement .clearshow := ⟨by decide, by decide⟩

end Sys2Proof.Laws.EncodedWord
end

