-- ==== Sys2Proof/Tests/Slice0.lean ====
section
/-! SUPPORT. Small tests, each expected result taken from spec/ (the vector or table is named), and for each statement
with hypotheses a witness that meets them together. -/

namespace Sys2Proof.Tests

open Sys2Proof.Machine

/-! ### States -/

/-- REF20 with N = 1, as in 95_test_vectors.md section 2.6. -/
def ref1 : Params := { Config.ref20 with ledCount := 1 }

/-- REF20 with N = 1 and a lead-in of 2 ticks (section 2.5, lead-in vector). -/
def refLead : Params := { ref1 with tLead := 2 }

/-- A buffer holding these bytes from location 0 on. -/
def bytesFrom : Nat → List Byte → Memory
  | _, [] => []
  | a, v :: rest => (a, v) :: bytesFrom (a + 1) rest

/-- IDLE, N = 3, `FB = {1,2,3, 4,5,6, 7,8,9}` (vectors TV-F8 to TV-F12). -/
def idle3 : State := { State.resetWith Config.ref20 with fb := bytesFrom 0 [1, 2, 3, 4, 5, 6, 7, 8, 9] }

/-- IDLE, N = 1, `FB = {0xFF, 0x00, 0x00}` (section 2.6). -/
def idle1 : State := { State.resetWith ref1 with fb := bytesFrom 0 [0xFF, 0x00, 0x00] }

/-- Section 2.6 in SEND at the given position, the line as listed there. -/
def send1 (p : Nat) (k : Fin 8) (t : Nat) (sr : Byte) (dout : Bool) : State :=
  { idle1 with mode := .send, excl := true, p := p, k := k, t := t, sr := sr, dout := dout }

/-- Section 2.6 in LATCH. -/
def latch1 (t : Nat) : State := { idle1 with mode := .latch, excl := true, t := t }

/-- In LEAD with a lead-in of 2 ticks. -/
def lead1 (t : Nat) : State :=
  { State.resetWith refLead with fb := bytesFrom 0 [0x80, 0x00, 0x01], mode := .lead, excl := true, t := t }

/-- The answer is a next state with this property. -/
def answers (r : Result) (f : State → Bool) : Bool :=
  match r with
  | .next t => f t
  | .fault _ => false
  | .refused _ => false

/-! ### Well-formedness and validity: each check refuses an ill-formed term -/

theorem test_line_wf : (AsmLine.setpixel 255 255 255 255).wf = true := by decide
theorem test_line_index : (AsmLine.setpixel 256 0 0 0).wf = false := by decide
theorem test_line_red : (AsmLine.setpixel 0 256 0 0).wf = false := by decide
theorem test_line_green : (AsmLine.setpixel 0 0 256 0).wf = false := by decide
theorem test_line_blue : (AsmLine.setpixel 0 0 0 256).wf = false := by decide
theorem test_line_setcolor_index : (AsmLine.setcolor 256 1 1).wf = false := by decide
theorem test_line_setcolor_color : (AsmLine.setcolor 0 256 1).wf = false := by decide
theorem test_line_setcolor_brightness : (AsmLine.setcolor 0 1 256).wf = false := by decide
theorem test_line_off : (AsmLine.off 256).wf = false := by decide

/-- TV-V1, TV-V2, TV-V4, TV-V11, TV-V12, TV-V13: valid records, two of them exactly on a bound. -/
theorem test_valid_records :
    Config.ref20.valid = true ∧ { Config.ref20 with t0h := 5 }.valid = true ∧
    { Config.ref20 with t1h := 13 }.valid = true ∧
    { Config.ref20 with fClk := 8000000, t0h := 3, t1h := 6, tBit := 10, tLatch := 2400 }.valid = true ∧
    { Config.ref20 with fClk := 16000000, t0h := 6, t1h := 13, tBit := 20, tLatch := 4800 }.valid = true ∧
    { Config.ref20 with fClk := 24000000, t0h := 10, t1h := 19, tBit := 30, tLatch := 7200 }.valid = true := by decide

/-- TV-V8: V1 and V3 fail, V2 holds. -/
theorem test_v1_refuses :
    { Config.ref20 with t0h := 11, t1h := 11 }.v1 = false ∧ { Config.ref20 with t0h := 11, t1h := 11 }.v2 = true ∧
    { Config.ref20 with t0h := 11, t1h := 11 }.v3 = false := by decide

/-- TV-V3. -/
theorem test_v2_refuses : { Config.ref20 with t0h := 4 }.v2 = false := by decide

/-- TV-V5. -/
theorem test_v3_refuses : { Config.ref20 with t1h := 12 }.v3 = false := by decide

/-- TV-V6: invalid with tolerance 0, valid with tolerance 50 ns. -/
theorem test_v4_refuses :
    { Config.ref20 with tBit := 26 }.v4 = false ∧ { Config.ref20 with tBit := 26, tolPeriodNs := 50 }.v4 = true := by
  decide

/-- TV-V7. -/
theorem test_v5_refuses : { Config.ref20 with tLatch := 5999 }.v5 = false := by decide

/-- TV-V9, TV-V10. -/
theorem test_v6_refuses :
    { Config.ref20 with ledCount := 0 }.v6 = false ∧ { Config.ref20 with ledCount := 256 }.v6 = false := by decide

/-- TV-V14: no record at 1 MHz is valid. -/
theorem test_one_megahertz :
    { Config.ref20 with fClk := 1000000, t0h := 1, t1h := 2, tBit := 3, tLatch := 300, tolPeriodNs := 2000 }.valid =
      false := by decide

/-! ### Decoding: words written out bit by bit from R50 and R51 -/

theorem test_decode_init : decode 0b0000000100000000000000000000000000000000 = .ok .init := by decide
theorem test_decode_setpixel :
    decode 0b0000001000000001011001000000000000000000 = .ok (.setpixel 1 100 0 0) := by decide
/-- TV-E4: IDX 2, R 255, G 85, B 15. -/
theorem test_decode_setpixel_fields :
    decode 0b0000001000000010111111110101010100001111 = .ok (.setpixel 2 255 85 15) := by decide
theorem test_decode_clear : decode 0b0000001100000000000000000000000000000000 = .ok .clear := by decide
theorem test_decode_transmit : decode 0b0000010000000000000000000000000000000000 = .ok .transmit := by decide
theorem test_decode_clearshow : decode 0b0000010100000000000000000000000000000000 = .ok .clearshow := by decide
/-- TV-E14: no bit of OP is a don't-care. -/
theorem test_decode_reserved :
    decode 0b1000000000000001011001000000000000000000 = .error (.reservedOpcode 0x80) := by decide
/-- 30_encoding.md section 9. -/
theorem test_encode_worked :
    encode .init = 0x0100000000 ∧ encode (.setpixel 1 100 0 0) = 0x0201640000 ∧
    encode (.setpixel 0 0x00 0xFF 0x00) = 0x020000FF00 ∧ encode .clear = 0x0300000000 ∧
    encode .transmit = 0x0400000000 ∧ encode .clearshow = 0x0500000000 := by decide
theorem test_decode_table_word :
    decodeTableWord 40 0x0201640000 = some (.setpixel 1 100 0 0) ∧ decodeTableWord 40 0x0600000000 = none := by decide

/-! ### One step -/

/-- TV-F2. -/
theorem test_init : answers (exec .init idle3) (fun t => t.frameBytes == [0, 0, 0, 0, 0, 0, 0, 0, 0]) = true := by decide
/-- TV-F3. -/
theorem test_clear : answers (exec .clear idle3) (fun t => t.frameBytes == [0, 0, 0, 0, 0, 0, 0, 0, 0]) = true := by decide
/-- TV-F7 on a filled buffer: g, r, b order, neighbours untouched. -/
theorem test_setpixel_order :
    answers (exec (.setpixel 2 0xFF 0x55 0x0F) idle3)
      (fun t => t.frameBytes == [1, 2, 3, 4, 5, 6, 0x55, 0xFF, 0x0F]) = true := by decide
/-- TV-F12: index 4 is not wrapped to pixel 1. -/
theorem test_setpixel_no_wrap :
    answers (exec (.setpixel 4 1 1 1) idle3) (fun t => t.frameBytes == [1, 2, 3, 4, 5, 6, 7, 8, 9]) = true := by decide
/-- TV-F13: right after reset SETPIXEL defines three bytes and lists no other. -/
theorem test_setpixel_after_reset :
    answers (exec (.setpixel 2 1 2 3) State.reset) (fun t => t.fb == [(6, 2), (7, 1), (8, 3)]) = true := by decide
/-- Section 2.6, ticks a and a+1. -/
theorem test_transmit_first_tick :
    answers (step (idle1.withFetchWord 40 0x0400000000))
      (fun t => t.mode == .send && t.excl && t.dout && t.sr == 0xFF && t.p == 0 && t.t == 0) = true := by decide
/-- The lead-in vector of section 2.5: the line stays LOW in LEAD. -/
theorem test_transmit_lead_in :
    answers (exec .transmit { State.resetWith refLead with fb := bytesFrom 0 [0x80, 0x00, 0x01] })
      (fun t => t.mode == .lead && t.excl && !t.dout && t.sr == 0) = true := by decide
/-- PG3, tick 1: the buffer is cleared before it is sent. -/
theorem test_clearshow :
    answers (exec .clearshow idle3)
      (fun t => t.frameBytes == [0, 0, 0, 0, 0, 0, 0, 0, 0] && t.mode == .send && t.sr == 0 && t.dout) = true := by decide
/-- TV-F14: a reserved word is a no-op. -/
theorem test_reserved_word : answers (step (idle3.withFetchWord 40 0x0009090909)) (fun t => t == idle3) = true := by decide

/-- Section 2.6, `a+16` to `a+17`: `T = T1H`, the line goes LOW. -/
theorem test_tick_falls :
    answers (step (send1 0 0 15 0xFF true)) (fun t => t.t == 16 && !t.dout) = true := by decide
/-- Section 2.6, `a+25` to `a+26`: symbol 1 starts, `SR = 0xFE`. -/
theorem test_tick_next_bit :
    answers (step (send1 0 0 24 0xFF false)) (fun t => t.k == 1 && t.t == 0 && t.sr == 0xFE && t.dout) = true := by decide
/-- Section 2.6, `a+200` to `a+201`: byte 1. -/
theorem test_tick_next_byte :
    answers (step (send1 0 7 24 0x80 false)) (fun t => t.p == 1 && t.k == 0 && t.sr == 0x00 && t.dout) = true := by decide
/-- Section 2.6, `a+600` to `a+601`: the latch delay begins. -/
theorem test_tick_latch_begins :
    answers (step (send1 2 7 24 0x00 false)) (fun t => t.mode == .latch && t.p == 0 && t.t == 0 && t.excl) = true := by
  decide
/-- Section 2.6, `a+6600` to `a+6601`: idle, the exclusion released. -/
theorem test_tick_idle_again :
    answers (step (latch1 5999))
      (fun t => t.mode == .idle && !t.excl && t.t == 0 && t.frames == [[0xFF, 0x00, 0x00]]) = true := by decide
/-- Section 2.7: a SETPIXEL shown while busy is held and stays presented. -/
theorem test_command_held :
    answers (step { send1 0 0 3 0xFF true with env := [.present 0x0200070809] })
      (fun t => t.env == [.present 0x0200070809] && t.frameBytes == [0xFF, 0x00, 0x00] && t.t == 4) = true := by decide
/-- TV-X2: `RST` at `a+10`: the line LOW at once, `EXCL = 0`, nothing of `FB` kept, `FRAMES` not extended. -/
theorem test_reset_in_symbol :
    { send1 0 0 9 0xFF true with env := [.assertRst none] }.line = false ∧
    answers (step { send1 0 0 9 0xFF true with env := [.assertRst none] })
      (fun t => t.mode == .idle && !t.excl && !t.dout && t.fb == [] && t.frames == []) = true := by decide

/-! ### Resolver and wire -/

/-- TV-P4, TV-P7, TV-P8, TV-P9, TV-P14. -/
theorem test_resolver :
    resolveColor Config.paletteRef 1 128 = { r := 50, g := 0, b := 0 } ∧
    resolveColor Config.paletteRef 1 2 = { r := 0, g := 0, b := 0 } ∧
    resolveColor Config.paletteRef 1 3 = { r := 1, g := 0, b := 0 } ∧
    resolveColor Config.paletteRef 4 51 = { r := 20, g := 20, b := 0 } ∧
    resolveColor Config.paletteRef 9 200 = { r := 0, g := 0, b := 0 } := by decide
/-- TV-P20, TV-P24 and the last row of R60. -/
theorem test_pseudo_operations :
    lineWords Config.paletteRef (.setcolor 2 1 128) = some [0x0202320000] ∧
    lineWords Config.paletteRef (.off 1) = some [0x0201000000] ∧
    lineWords Config.paletteRef .clearThenTransmit = some [0x0300000000, 0x0400000000] := by decide
/-- TV-T8: `0x64` sends 0,1,1,0,0,1,0,0. -/
theorem test_byte_bits : byteBits 0x64 = [false, true, true, false, false, true, false, false] := by decide
/-- TV-T3: the symbols of the 8 MHz record, `H3 L7` and `H6 L4`. -/
theorem test_symbols :
    emitBit { Config.ref20 with t0h := 3, t1h := 6, tBit := 10 } false =
      [true, true, true, false, false, false, false, false, false, false] ∧
    emitBit { Config.ref20 with t0h := 3, t1h := 6, tBit := 10 } true =
      [true, true, true, true, true, true, false, false, false, false] := by decide
/-- R148 as a duty on schedules: two quiet ticks are enough for a latch delay of two, one is not. -/
theorem test_spacing_after_reset :
    waitsAfterReset 2 none [.assertRst none, .wait, .wait, .present 0x0400000000] = true ∧
    waitsAfterReset 2 none [.assertRst none, .wait, .present 0x0500000000] = false := by decide

/-! ### Witnesses: states and operands that meet the hypotheses of the statements -/

theorem witness_ready : Ready idle3 ∧ Ready State.reset ∧ Ready idle1 := by
  unfold Ready
  decide
theorem witness_setpixel_in_range : Ready idle3 ∧ (0 : Byte).toNat < idle3.params.ledCount ∧
    (2 : Byte).toNat < idle3.params.ledCount := by
  unfold Ready
  decide
theorem witness_setpixel_out_of_range : Ready idle3 ∧ idle3.params.ledCount ≤ (3 : Byte).toNat ∧
    idle3.params.ledCount ≤ (255 : Byte).toNat := by
  unfold Ready
  decide
theorem witness_setpixel_reorders :
    idle3.mode = .idle ∧ (1 : Byte).toNat < idle3.params.ledCount ∧
    answers (exec (.setpixel 1 100 0 0) idle3) (fun _ => true) = true := by decide
theorem witness_reserved_word :
    let s : State := { idle3 with env := [.offer 0x0600000000] }
    Ready s ∧ 5 < (fieldOp 0x0600000000).toNat ∧ s.env = .offer 0x0600000000 :: [] := by
  unfold Ready
  decide
theorem witness_reserved_zero :
    let s : State := { idle3 with env := [.present 0x0009090909] }
    Ready s ∧ fieldOp 0x0009090909 = 0 ∧ s.env = .present 0x0009090909 :: [] := by
  unfold Ready
  decide
theorem witness_setpixel_line :
    (AsmLine.setpixel 255 1 2 3).wf = true ∧ (255 : Nat) < 256 ∧ (AsmLine.setpixel 0 0 0 256).wf = false := by decide
theorem witness_decodes :
    decode 0x04ABCDEF01 = .ok .transmit ∧ decode 0x0202FF550F = .ok (.setpixel 2 255 85 15) := by decide

theorem witness_lead_counts : (lead1 0).params.valid = true ∧ (lead1 0).mode = .lead ∧ (lead1 0).env = [] ∧
    (lead1 0).p < (lead1 0).params.fbBytes ∧ (lead1 0).t < (lead1 0).params.tLead - 1 := by decide
theorem witness_lead_ends : (lead1 1).params.valid = true ∧ (lead1 1).mode = .lead ∧ (lead1 1).env = [] ∧
    (lead1 1).p < (lead1 1).params.fbBytes ∧ ¬ (lead1 1).t < (lead1 1).params.tLead - 1 := by decide
theorem witness_send_counts : (send1 0 0 23 0xFF false).params.valid = true ∧ (send1 0 0 23 0xFF false).mode = .send ∧
    (send1 0 0 23 0xFF false).env = [] ∧
    (send1 0 0 23 0xFF false).t < (send1 0 0 23 0xFF false).params.tBit - 1 := by decide
theorem witness_send_next_bit : (send1 0 6 24 0xC0 false).params.valid = true ∧
    (send1 0 6 24 0xC0 false).mode = .send ∧ (send1 0 6 24 0xC0 false).env = [] ∧
    ¬ (send1 0 6 24 0xC0 false).t < (send1 0 6 24 0xC0 false).params.tBit - 1 ∧
    (send1 0 6 24 0xC0 false).k.val < 7 := by decide
theorem witness_send_next_byte : (send1 1 7 24 0x00 false).params.valid = true ∧
    (send1 1 7 24 0x00 false).mode = .send ∧ (send1 1 7 24 0x00 false).env = [] ∧
    ¬ (send1 1 7 24 0x00 false).t < (send1 1 7 24 0x00 false).params.tBit - 1 ∧
    (send1 1 7 24 0x00 false).k.val = 7 ∧
    (send1 1 7 24 0x00 false).p < (send1 1 7 24 0x00 false).params.fbBytes - 1 := by decide
theorem witness_send_last_byte : (send1 2 7 24 0x00 false).params.valid = true ∧
    (send1 2 7 24 0x00 false).mode = .send ∧ (send1 2 7 24 0x00 false).env = [] ∧
    ¬ (send1 2 7 24 0x00 false).t < (send1 2 7 24 0x00 false).params.tBit - 1 ∧
    (send1 2 7 24 0x00 false).k.val = 7 ∧
    ¬ (send1 2 7 24 0x00 false).p < (send1 2 7 24 0x00 false).params.fbBytes - 1 := by decide
theorem witness_latch_counts : (latch1 5998).params.valid = true ∧ (latch1 5998).mode = .latch ∧ (latch1 5998).env = [] ∧
    (latch1 5998).t < (latch1 5998).params.tLatch - 1 := by decide
theorem witness_latch_ends : (latch1 5999).params.valid = true ∧ (latch1 5999).mode = .latch ∧ (latch1 5999).env = [] ∧
    ¬ (latch1 5999).t < (latch1 5999).params.tLatch - 1 := by decide

/-- A state in the middle of a symbol meets the invariant, with its next step and a word presented. -/
def busyInv : State := { send1 0 1 3 0xFE true with env := [.present 0x0400000000] }

theorem witness_inv_send : Inv busyInv := by
  constructor <;> decide
theorem witness_inv_idle : Inv idle1 ∧ idle1.mode = .idle ∧ idle1.rstAsserted = false := by
  refine ⟨?_, by decide, by decide⟩
  constructor <;> decide
theorem witness_inv_latch : Inv (latch1 5999) ∧ (latch1 5999).rstAsserted = false := by
  refine ⟨?_, by decide⟩
  constructor <;> decide
theorem witness_inv_lead : Inv (lead1 1) := by
  constructor <;> decide
theorem witness_inv_steps : Inv busyInv ∧ answers (step busyInv) (fun _ => true) = true :=
  ⟨witness_inv_send, by decide⟩
theorem witness_busy_ends :
    Inv busyInv ∧ busyInv.mode ≠ .idle ∧ (∀ m ∈ busyInv.env, isPortMove m = true) ∧ 0 < ticksLeft busyInv :=
  ⟨witness_inv_send, by decide, by decide, by decide⟩
theorem witness_transmit_again :
    Inv { idle1 with env := [.present 0x0400000000, .present 0x0400000000] } ∧ decode 0x0400000000 = .ok .transmit := by
  refine ⟨?_, by decide⟩
  constructor <;> decide
theorem witness_trace_run : Ready idle1 ∧ idle1.env = [] := by
  unfold Ready
  decide
theorem witness_busy : Busy busyInv ∧ busyInv.rstAsserted = false ∧ busyInv.env = .present 0x0400000000 :: [] ∧
    answers (step busyInv) (fun _ => true) = true := by
  unfold Busy
  decide
theorem witness_busy_offer :
    let s : State := { send1 0 0 3 0xFF true with env := [.offer 0x0100000000] }
    Busy s ∧ s.env = .offer 0x0100000000 :: [] ∧ answers (step s) (fun _ => true) = true := by
  unfold Busy
  decide
theorem witness_two_schedules :
    (∀ m ∈ ([] : List Move).head?, isPortMove m = true) ∧
    (∀ m ∈ ([.offer 0x0100000000, .assertRst none] : List Move).head?, isPortMove m = true) ∧
    answers (step (busyInv.setEnv [.wait])) (fun _ => true) = true := by decide
theorem witness_buffer_changes :
    let s : State := { idle3 with env := [.offer 0x0300000000] }
    answers (step s) (fun t => decide (t.fb ≠ s.fb)) = true := by decide
theorem witness_exclusion_rises :
    let s : State := { idle1 with env := [.offer 0x0500000000] }
    s.excl = false ∧ answers (step s) (fun t => t.excl) = true := by decide
theorem witness_exclusion_falls :
    (latch1 5999).excl = true ∧ answers (step (latch1 5999)) (fun t => !t.excl) = true ∧
    answers (step { latch1 3 with env := [.assertRst (some 0x0100000000)] }) (fun t => !t.excl) = true := by decide
theorem witness_foreign_write : { busyInv with env := [.writeFb 0 1] }.env = .writeFb 0 1 :: [] := by decide
theorem witness_broken_obligations :
    { busyInv with env := [.stallClock] }.env = .stallClock :: [] ∧ busyInv.mode ≠ .idle ∧
    { busyInv with env := [.takeInterrupt] }.env = .takeInterrupt :: [] ∧ busyInv.excl = true := by decide
theorem witness_reset_move :
    let s : State := { busyInv with env := [.assertRst (some 0x0400000000), .wait] }
    s.params.valid = true ∧ s.env = .assertRst (some 0x0400000000) :: [.wait] := by decide
theorem witness_invalid_record : (State.resetWith { Config.ref20 with ledCount := 0 }).params.valid = false := by decide
theorem witness_record_and_bytes : Config.ref20.valid = true ∧ ([0xFF, 0x00, 0x00] : List Byte) ≠ [] := by decide
theorem witness_color_indices : (7 : Byte).toNat ≤ 7 ∧ 7 < (8 : Byte).toNat ∧ 7 < (255 : Byte).toNat := by decide
theorem witness_setcolor : Ready idle3 ∧ (2 : Nat) < idle3.params.ledCount ∧ idle3.params.ledCount ≤ 3 ∧ (7 : Nat) < 9 := by
  unfold Ready
  decide
theorem witness_monotone : (1 : Byte).toNat ≤ (2 : Byte).toNat := by decide
theorem witness_table_word : decodeTableWord 40 0x0500000000 = some .clearshow := by decide
theorem witness_idle_wait : Ready { idle3 with env := [.wait] } ∧ idle3.over = true := by
  unfold Ready
  decide
theorem witness_lawful :
    busyInv.params.valid = true ∧ busyInv.p < busyInv.params.fbBytes ∧
    (∀ m ∈ busyInv.env.head?, breaksObligation busyInv m = false) := by decide
theorem witness_run : Inv busyInv ∧ ∀ m ∈ busyInv.env, isPortMove m = true := ⟨witness_inv_send, by decide⟩

end Sys2Proof.Tests
end

section
/-! The order in which a frame is stored and sent (R30 to R33): what SETPIXEL leaves in the buffer, a stretch of the
frame's bytes, and the bits and symbols made of them. -/

namespace Sys2Proof.Machine

/-! ### Lists of blocks of one length -/

/-- The blocks put one after the other take `n` places each. -/
theorem length_flatMap_of_length_eq {α β : Type} {f : α → List β} {n : Nat} (hf : ∀ x, (f x).length = n)
    (l : List α) : (l.flatMap f).length = n * l.length := by
  simp [List.length_flatMap, hf, Nat.mul_comm]

/-- Place `k` of block `i` in a list of blocks of `n` places each. -/
theorem getElem?_flatMap_of_length_eq {α β : Type} {f : α → List β} {n : Nat} (hf : ∀ x, (f x).length = n)
    (l : List α) (i : Nat) {k : Nat} (hk : k < n) :
    (l.flatMap f)[n * i + k]? = l[i]?.bind (fun x => (f x)[k]?) := by
  induction l generalizing i with
  | nil => simp
  | cons x xs ih =>
    cases i with
    | zero => simp [List.getElem?_append_left, hf, hk]
    | succ i =>
      have hpos : n * (i + 1) + k = n + (n * i + k) := by rw [Nat.mul_succ]; omega
      rw [List.flatMap_cons, hpos, List.getElem?_append_right (by rw [hf]; omega), hf, Nat.add_sub_cancel_left, ih,
        List.getElem?_cons_succ]

/-! ### The frame's bytes -/

/-- Byte `i` of the frame is location `i` of `FB`. -/
theorem State.frameBytes_getElem? (s : State) {i : Nat} (h : i < s.params.fbBytes) :
    s.frameBytes[i]? = some (s.fbByte i) := by
  simp [State.frameBytes, List.getElem?_range h]

/-- `n` bytes of the frame from byte `a` on are the locations from `a` on. -/
theorem State.frameBytes_slice (s : State) {a n : Nat} (h : a + n ≤ s.params.fbBytes) :
    (s.frameBytes.drop a).take n = (List.range n).map (fun i => s.fbByte (a + i)) := by
  unfold State.frameBytes
  rw [List.take_drop, ← List.map_take, ← List.map_drop, List.take_range, Nat.min_eq_left h, List.range_eq_range',
    List.drop_range', List.range'_eq_map_range, List.map_map]
  simp [Function.comp_def]

/-- Pixel `i` takes three bytes of the frame: green, red, blue (R12, R33). -/
theorem State.frameBytes_pixel (s : State) {i : Nat} (h : i < s.params.ledCount) :
    (s.frameBytes.drop (3 * i)).take 3 = [(s.pixel i).g, (s.pixel i).r, (s.pixel i).b] :=
  s.frameBytes_slice (by simp only [Params.fbBytes]; omega)

/-! ### SETPIXEL -/

/-- SETPIXEL is a command shown at the port (R82). -/
theorem exec_setpixel_eq_onCommand (idx r g b : Byte) (s : State) :
    exec (.setpixel idx r g b) s = onCommand s fun s =>
      if indexInRange s.params idx then .next (s.setFb (s.fb.writeAll (pixelCells (pixelAddress idx) r g b)))
      else .next s := rfl

/-- What SETPIXEL in IDLE with an index in range leads to (R82). -/
theorem exec_setpixel_next_of_inRange {s t : State} {idx r g b : Byte} (hm : s.mode = .idle)
    (hi : idx.toNat < s.params.ledCount) (h : exec (.setpixel idx r g b) s = .next t) :
    t = s.setFb (s.fb.writeAll (pixelCells (pixelAddress idx) r g b)) := by
  rw [exec_setpixel_eq_onCommand] at h
  obtain ⟨hv, -⟩ := onCommand_next h
  rw [onCommand_idle hv hm, if_pos ((indexInRange_iff ..).2 hi)] at h
  injection h with h
  exact h.symm

/-- The pixel SETPIXEL stores reads back as it was given (R12, R33). -/
theorem State.pixel_setFb_pixelCells (s : State) (idx r g b : Byte) :
    (s.setFb (s.fb.writeAll (pixelCells (pixelAddress idx) r g b))).pixel idx.toNat = { r := r, g := g, b := b } := by
  simp [State.pixel, State.fbByte_pixelCells, pixelAddress, pixelIndex]

/-! ### The frame's bits and symbols -/

@[simp] theorem byteBits_length (x : Byte) : (byteBits x).length = 8 := by simp [byteBits]

/-- Bit `k` sent of a byte is its bit `7 - k` (R95). -/
theorem byteBits_getElem? (x : Byte) {k : Nat} (hk : k < 8) : (byteBits x)[k]? = some (x.getLsbD (7 - k)) := by
  simp [byteBits, List.getElem?_range hk]

theorem frameBits_length (bytes : List Byte) : (frameBits bytes).length = 8 * bytes.length :=
  length_flatMap_of_length_eq byteBits_length bytes

/-- Bit `j` of a frame is bit `7 - j mod 8` of byte `j div 8` (R32). -/
theorem frameBits_getElem? (bytes : List Byte) (j : Nat) :
    (frameBits bytes)[j]? = bytes[j / 8]?.map (fun x => x.getLsbD (7 - j % 8)) := by
  have hk : j % 8 < 8 := Nat.mod_lt _ (by decide)
  calc (frameBits bytes)[j]? = (bytes.flatMap byteBits)[8 * (j / 8) + j % 8]? := by rw [Nat.div_add_mod, frameBits]
    _ = bytes[j / 8]?.bind (fun x => (byteBits x)[j % 8]?) := getElem?_flatMap_of_length_eq byteBits_length _ _ hk
    _ = bytes[j / 8]?.map (fun x => x.getLsbD (7 - j % 8)) := by
      simp only [byteBits_getElem? _ hk, Option.map_eq_bind, Function.comp_def]

/-- A symbol takes one bit period (R96). -/
theorem emitBit_length {c : Params} (h : c.valid = true) (v : Bool) : (emitBit c v).length = c.tBit := by
  have := Params.highTicks_lt h v
  simp only [emitBit, emit, List.length_append, List.length_replicate]
  omega

/-- A frame is sent as the symbols of its bits, with nothing between them (R99). -/
theorem emitFrame_eq_flatMap_emitBit (c : Params) (bytes : List Byte) :
    emitFrame c bytes = (frameBits bytes).flatMap (emitBit c) :=
  List.flatMap_assoc.symm

theorem emitFrame_length {c : Params} (h : c.valid = true) (bytes : List Byte) :
    (emitFrame c bytes).length = 8 * bytes.length * c.tBit := by
  rw [emitFrame_eq_flatMap_emitBit, length_flatMap_of_length_eq (emitBit_length h), frameBits_length, Nat.mul_comm]

end Sys2Proof.Machine
end

section
/-! The statements about the frame buffer's order: SETPIXEL's reordering (R33) and the order of the bits sent (R32). -/

namespace Sys2Proof

open Sys2Proof.Machine

/-- Settles O11, from the state SETPIXEL leads to and the frame's three bytes of a pixel. -/
theorem setpixelReordersToWireOrder : Obligations.SetpixelReordersToWireOrder := by
  intro s t idx r g b hm hi h
  have ht := exec_setpixel_next_of_inRange hm hi h
  have hpixel : t.pixel idx.toNat = { r := r, g := g, b := b } := ht ▸ s.pixel_setFb_pixelCells idx r g b
  have hparams : t.params = s.params := by rw [ht, State.setFb_params]
  refine ⟨hpixel, ?_⟩
  rw [t.frameBytes_pixel (by rwa [hparams]), hpixel]

/-- Settles O28, from the bits of a frame as blocks of eight and its trace as blocks of one bit period. -/
theorem frameSendsBitsInWireOrder : Obligations.FrameSendsBitsInWireOrder := by
  intro s hv
  have hcount : 8 * s.frameBytes.length = 24 * s.params.ledCount := by
    rw [State.frameBytes_length, Params.fbBytes]
    omega
  refine ⟨?_, ?_, emitFrame_eq_flatMap_emitBit _ _, ?_⟩
  · rw [frameBits_length, hcount]
  · intro j hj
    have hbyte : j / 8 < s.params.fbBytes := by
      rw [Params.fbBytes]
      omega
    rw [frameBits_getElem?, s.frameBytes_getElem? hbyte, Option.map_some]
  · rw [emitFrame_length hv, hcount]

end Sys2Proof
end

section
/-! The resolver's functions (R70 to R73): the scaling law of one channel, the coercion of a colour index, and what
`resolveColor` gives for an index in and out of range. -/

namespace Sys2Proof.Machine

/-! ### The scaling law -/

/-- A brightness is at most 255, so scaling does not exceed the channel (R73). -/
theorem mul_brightness_div_le (p s : Byte) : p.toNat * s.toNat / 255 ≤ p.toNat := by
  have hs : s.toNat ≤ 255 := Nat.le_of_lt_succ s.isLt
  apply Nat.div_le_of_le_mul
  calc p.toNat * s.toNat ≤ p.toNat * 255 := Nat.mul_le_mul_left _ hs
    _ = 255 * p.toNat := Nat.mul_comm _ _

/-- The scaled channel fits eight bits: nothing is lost when it is stored as a byte (R73). -/
theorem scaleChannel_toNat (p s : Byte) : (scaleChannel p s).toNat = p.toNat * s.toNat / 255 :=
  Nat.mod_eq_of_lt (Nat.lt_of_le_of_lt (mul_brightness_div_le p s) p.isLt)

theorem scaleChannel_toNat_le (p s : Byte) : (scaleChannel p s).toNat ≤ p.toNat := by
  rw [scaleChannel_toNat]
  exact mul_brightness_div_le p s

/-- A channel that is off stays off at every brightness. -/
@[simp] theorem scaleChannel_zero_left (s : Byte) : scaleChannel 0#8 s = 0#8 := by simp [scaleChannel]

/-- Brightness 0 is off (R73). -/
@[simp] theorem scaleChannel_zero_right (p : Byte) : scaleChannel p 0#8 = 0#8 := by simp [scaleChannel]

/-- Full brightness is the palette's channel itself (R73). -/
@[simp] theorem scaleChannel_full (p : Byte) : scaleChannel p 255#8 = p := by
  apply BitVec.eq_of_toNat_eq
  rw [scaleChannel_toNat]
  exact Nat.mul_div_cancel _ (by decide)

/-! ### The colour index -/

theorem coerceColorIndex_of_le {index : Byte} (h : index.toNat ≤ 7) : coerceColorIndex index = index.toNat := if_pos h

theorem coerceColorIndex_of_gt {index : Byte} (h : 7 < index.toNat) : coerceColorIndex index = 0 :=
  if_neg (Nat.not_le.2 h)

/-- Entry 0 of every palette is off (R8, R72). -/
@[simp] theorem paletteEntry_zero (pal : Palette) : paletteEntry pal 0 = Pixel.off := rfl

/-! ### The resolved colour -/

/-- An index of the palette resolves to its entry with each channel scaled (R70, R73). -/
theorem resolveColor_of_le (pal : Palette) {index : Byte} (s : Byte) (h : index.toNat ≤ 7) :
    resolveColor pal index s =
      { r := scaleChannel (paletteEntry pal index.toNat).r s
        g := scaleChannel (paletteEntry pal index.toNat).g s
        b := scaleChannel (paletteEntry pal index.toNat).b s } := by
  rw [resolveColor, coerceColorIndex_of_le h]

/-- Index 0 resolves to off at every brightness (R72). -/
@[simp] theorem resolveColor_zero (pal : Palette) (s : Byte) : resolveColor pal 0#8 s = Pixel.off := by
  rw [resolveColor_of_le pal s (by decide)]
  simp [Pixel.off]

/-- A bad index is coerced before the palette is read, so it resolves as index 0 does (R72). -/
theorem resolveColor_of_gt (pal : Palette) {index : Byte} (s : Byte) (h : 7 < index.toNat) :
    resolveColor pal index s = resolveColor pal 0 s := by
  have hcoerce : coerceColorIndex index = coerceColorIndex 0 := coerceColorIndex_of_gt h
  rw [resolveColor, hcoerce, ← resolveColor]

end Sys2Proof.Machine
end

section
/-! The statements about the resolver: the scaling by brightness (R73) and the coercion of a bad index (R72). -/

namespace Sys2Proof

open Sys2Proof.Machine

/-- Settles O32, from the resolver's scaled entry and the scaling law of one channel. -/
theorem resolverScalesByBrightness : Obligations.ResolverScalesByBrightness := by
  refine ⟨?channels, ?bounded, ?extremes⟩
  case channels =>
    intro pal index s h
    rw [resolveColor_of_le pal s h]
    exact ⟨scaleChannel_toNat _ s, scaleChannel_toNat _ s, scaleChannel_toNat _ s⟩
  case bounded => exact fun p s => ⟨scaleChannel_toNat p s, scaleChannel_toNat_le p s⟩
  case extremes => exact fun p => ⟨scaleChannel_zero_right p, scaleChannel_full p⟩

/-- Settles O33, from the coercion to index 0 and the off entry there. -/
theorem resolverCoercesBadIndex : Obligations.ResolverCoercesBadIndex :=
  fun pal _ s => ⟨resolveColor_of_gt pal s, resolveColor_zero pal s⟩

end Sys2Proof
end

section
/-! The commands that write the frame buffer (R80 to R85): the words that stand for them, the buffer INIT and CLEAR
leave, and SETPIXEL in IDLE by its index. -/

namespace Sys2Proof

/-! ### Their words (R51, R54) -/

theorem decode_of_fieldOp_init {w : CmdWord} (h : fieldOp w = 0x01) : decode w = .ok .init := if_pos h

theorem decode_of_fieldOp_setpixel {w : CmdWord} (h : fieldOp w = 0x02) :
    decode w = .ok (.setpixel (fieldIdx w) (fieldR w) (fieldG w) (fieldB w)) := by
  simp [decode, h]

theorem decode_of_fieldOp_clear {w : CmdWord} (h : fieldOp w = 0x03) : decode w = .ok .clear := by
  simp [decode, h]

end Sys2Proof

namespace Sys2Proof.Machine

/-! ### Replacing the buffer -/

@[simp] theorem State.setFb_fb_self (s : State) : s.setFb s.fb = s := rfl

/-- Whether a command is accepted does not depend on the buffer (R6, R15). -/
theorem ready_setFb {s : State} (h : Ready s) (m : Memory) : Ready (s.setFb m) := h

/-! ### INIT and CLEAR -/

/-- The state with every byte of `FB` zero and all else as it was: what INIT and CLEAR lead to (R80, R81). -/
def State.zeroFilled (s : State) : State := s.setFb (Memory.fill s.params.fbBytes 0x00)

/-- INIT is a command shown at the port (R80). -/
theorem exec_init_eq_onCommand (s : State) : exec .init s = onCommand s fun s => .next s.zeroFilled := rfl

/-- CLEAR is a command shown at the port, with INIT's effect (R81). -/
theorem exec_clear_eq_onCommand (s : State) : exec .clear s = onCommand s fun s => .next s.zeroFilled := rfl

theorem exec_init_of_ready {s : State} (h : Ready s) : exec .init s = .next s.zeroFilled := by
  obtain ⟨hv, hm⟩ := h
  rw [exec_init_eq_onCommand, onCommand_idle hv hm]

theorem exec_clear_of_ready {s : State} (h : Ready s) : exec .clear s = .next s.zeroFilled := by
  obtain ⟨hv, hm⟩ := h
  rw [exec_clear_eq_onCommand, onCommand_idle hv hm]

theorem State.zeroFilled_fbByte (s : State) {a : Nat} (h : a < s.params.fbBytes) : s.zeroFilled.fbByte a = 0 :=
  s.fbByte_fill 0 h

/-- The three bytes of a pixel lie within the buffer, so each pixel reads off (R12, R80). -/
theorem State.zeroFilled_pixel (s : State) {i : Nat} (h : i < s.params.ledCount) :
    s.zeroFilled.pixel i = Pixel.off := by
  have hzero (j : Nat) (hj : j < 3) : s.zeroFilled.fbByte (3 * i + j) = 0 :=
    s.zeroFilled_fbByte (by rw [Params.fbBytes]; omega)
  rw [State.pixel, hzero 1 (by decide), hzero 2 (by decide), ← Nat.add_zero (3 * i), hzero 0 (by decide), Pixel.off]

/-- What the buffer held before does not matter (R80, R81). -/
@[simp] theorem State.setFb_zeroFilled (s : State) (m : Memory) : (s.setFb m).zeroFilled = s.zeroFilled := rfl

theorem exec_init_setFb {s : State} (h : Ready s) (m : Memory) : exec .init (s.setFb m) = .next s.zeroFilled := by
  rw [exec_init_of_ready (ready_setFb h m), State.setFb_zeroFilled]

theorem exec_clear_setFb {s : State} (h : Ready s) (m : Memory) : exec .clear (s.setFb m) = .next s.zeroFilled := by
  rw [exec_clear_of_ready (ready_setFb h m), State.setFb_zeroFilled]

/-- Nothing but the buffer changes (R85). -/
theorem State.zeroFilled_eq_setFb (s : State) : s.zeroFilled = s.setFb s.zeroFilled.fb := rfl

/-! ### SETPIXEL -/

/-- In range SETPIXEL stores the three bytes of its pixel (R82). -/
theorem exec_setpixel_of_inRange {s : State} {idx : Byte} (r g b : Byte) (h : Ready s)
    (hi : idx.toNat < s.params.ledCount) :
    exec (.setpixel idx r g b) s = .next (s.setFb (s.fb.writeAll (pixelCells (3 * idx.toNat) r g b))) := by
  obtain ⟨hv, hm⟩ := h
  rw [exec_setpixel_eq_onCommand, onCommand_idle hv hm, if_pos ((indexInRange_iff ..).2 hi), pixelAddress, pixelIndex]

/-- Out of range SETPIXEL completes and is a no-op (R83). -/
theorem exec_setpixel_of_outOfRange {s : State} {idx : Byte} (r g b : Byte) (h : Ready s)
    (hi : s.params.ledCount ≤ idx.toNat) : exec (.setpixel idx r g b) s = .next s := by
  obtain ⟨hv, hm⟩ := h
  have hout : ¬ indexInRange s.params idx = true := by rw [indexInRange_iff]; exact Nat.not_lt.2 hi
  rw [exec_setpixel_eq_onCommand, onCommand_idle hv hm, if_neg hout]

/-- SETPIXEL's update leaves every byte outside its three as it was (R82). -/
theorem State.fbByte_pixelCells_of_outside (s : State) {a x : Nat} (r g b : Byte) (hx : x < a ∨ a + 2 < x) :
    (s.setFb (s.fb.writeAll (pixelCells a r g b))).fbByte x = s.fbByte x := by
  have hg : x ≠ a := by omega
  have hr : x ≠ a + 1 := by omega
  have hb : x ≠ a + 2 := by omega
  rw [State.fbByte_pixelCells, if_neg hg, if_neg hr, if_neg hb]

end Sys2Proof.Machine
end

section
/-! The statements about the commands that write the frame buffer: INIT (R80), CLEAR (R81) and SETPIXEL (R82, R83). -/

namespace Sys2Proof

open Sys2Proof.Machine

/-- Settles O7, from the zero-filled buffer that both INIT and CLEAR lead to. -/
theorem initZeroFillsBuffer : Obligations.InitZeroFillsBuffer := by
  refine ⟨fun _ => decode_of_fieldOp_init, fun s h => ⟨s.zeroFilled, exec_init_of_ready h, ?bytes, ?pixels, ?anyBuffer,
    exec_clear_of_ready h, s.zeroFilled_eq_setFb⟩⟩
  case bytes => exact fun _ => s.zeroFilled_fbByte
  case pixels => exact fun _ => s.zeroFilled_pixel
  case anyBuffer => exact exec_init_setFb h

/-- Settles O8, from the zero-filled buffer that both INIT and CLEAR lead to whatever buffer they find, a zero-filled
one included. -/
theorem clearZeroFillsBuffer : Obligations.ClearZeroFillsBuffer := by
  refine ⟨fun _ => decode_of_fieldOp_clear, fun s h => ⟨s.zeroFilled, exec_clear_of_ready h, ?bytes, ?pixels,
    ?anyBuffer, exec_init_of_ready h, s.zeroFilled_eq_setFb, ?again⟩⟩
  case bytes => exact fun _ => s.zeroFilled_fbByte
  case pixels => exact fun _ => s.zeroFilled_pixel
  case anyBuffer => exact exec_clear_setFb h
  case again => exact exec_clear_setFb h _

/-- Settles O9, by whether the index is in range: the three bytes stored and the bytes around them, or a no-op. -/
theorem setpixelWritesOnePixel : Obligations.SetpixelWritesOnePixel := by
  refine ⟨fun _ => decode_of_fieldOp_setpixel, fun s idx r g b h => ?_⟩
  by_cases hi : idx.toNat < s.params.ledCount
  case pos =>
    refine ⟨_, exec_setpixel_of_inRange r g b h hi, rfl, fun _ => ⟨?green, ?red, ?blue, ?others⟩, fun hn => absurd hi hn⟩
    case green => simp [State.fbByte_pixelCells]
    case red => simp [State.fbByte_pixelCells]
    case blue => simp [State.fbByte_pixelCells]
    case others => exact fun a => s.fbByte_pixelCells_of_outside r g b
  case neg =>
    exact ⟨s, exec_setpixel_of_outOfRange r g b h (Nat.not_lt.1 hi), s.setFb_fb_self.symm, fun hn => absurd hn hi,
      fun _ => rfl⟩

/-- Settles O10: out of range SETPIXEL is a no-op. -/
theorem setpixelOutOfRangeIsNoOp : Obligations.SetpixelOutOfRangeIsNoOp :=
  fun _ _ r g b => exec_setpixel_of_outOfRange r g b

end Sys2Proof
end

section
/-! What a run puts on the line (R25, R104): a run of ticks with the levels it sends, and how a loop of such runs
composes. -/

namespace Sys2Proof.Machine

/-- From `s` the machine answers in every tick, sends the levels `tr`, one a tick, and is then in `t`. -/
inductive Emits : State → Trace → State → Prop
  | nil (s : State) : Emits s [] s
  | tick {s u t : State} {tr : Trace} : step s = .next u → Emits u tr t → Emits s (s.line :: tr) t

theorem levels_succ_of_step {s u : State} (h : step s = .next u) (n : Nat) :
    levels (n + 1) s = s.line :: levels n u := by
  simp only [levels, h]

theorem runTicks_succ_of_step {s u : State} (h : step s = .next u) (n : Nat) :
    runTicks (n + 1) s = runTicks n u := by
  simp only [runTicks, h]

theorem Emits.levels_eq {s t : State} {tr : Trace} (h : Emits s tr t) : levels tr.length s = tr := by
  induction h with
  | nil s => rfl
  | tick hstep _ ih => rw [List.length_cons, levels_succ_of_step hstep, ih]

theorem Emits.runTicks_eq {s t : State} {tr : Trace} (h : Emits s tr t) : runTicks tr.length s = .next t := by
  induction h with
  | nil s => rfl
  | tick hstep _ ih => rw [List.length_cons, runTicks_succ_of_step hstep, ih]

theorem Emits.append {s u t : State} {tr tr' : Trace} (h : Emits s tr u) (h' : Emits u tr' t) :
    Emits s (tr ++ tr') t := by
  induction h with
  | nil s => exact h'
  | tick hstep _ ih => exact .tick hstep (ih h')

theorem Emits.single {s t : State} (h : step s = .next t) : Emits s [s.line] t := .tick h (.nil t)

/-- A loop of `n` passes, the last of which leaves it: pass `i` starts in `f i` and sends `g i`. -/
theorem Emits.loop {f : Nat → State} {g : Nat → Trace} {n : Nat} {t : State} (hn : 0 < n)
    (hnext : ∀ i, i + 1 < n → Emits (f i) (g i) (f (i + 1)))
    (hlast : ∀ i, i + 1 = n → Emits (f i) (g i) t) :
    Emits (f 0) ((List.range n).flatMap g) t := by
  have hreach (i : Nat) (hi : i < n) : Emits (f 0) ((List.range i).flatMap g) (f i) := by
    induction i with
    | zero => exact .nil _
    | succ i ih =>
      rw [List.range_succ, List.flatMap_append, List.flatMap_singleton]
      exact (ih (by omega)).append (hnext i hi)
  obtain ⟨m, rfl⟩ : ∃ m, n = m + 1 := ⟨n - 1, by omega⟩
  rw [List.range_succ, List.flatMap_append, List.flatMap_singleton]
  exact (hreach m (by omega)).append (hlast m rfl)

/-- A loop of `n` single ticks, tick `i` in state `f i`. -/
theorem Emits.count {f : Nat → State} {n : Nat} {t : State} (hn : 0 < n)
    (hnext : ∀ i, i + 1 < n → step (f i) = .next (f (i + 1)))
    (hlast : ∀ i, i + 1 = n → step (f i) = .next t) :
    Emits (f 0) ((List.range n).map (fun i => (f i).line)) t := by
  rw [List.map_eq_flatMap]
  exact .loop hn (fun i hi => .single (hnext i hi)) (fun i hi => .single (hlast i hi))

end Sys2Proof.Machine
end

section
/-! A transmission with the port left alone or a word held at it (R22, R104): the state at each position of the
sequencer, the tick that leaves it, and the trace of the whole (R90, R105). -/

namespace Sys2Proof.Machine

/-! ### The trace -/

/-- Tick `j` of a symbol is HIGH exactly while `j` is below the HIGH ticks of its bit (R96). -/
theorem emitBit_eq_map_range {c : Params} (h : c.valid = true) (v : Bool) :
    emitBit c v = (List.range c.tBit).map (fun j => decide (j < c.highTicks v)) := by
  have hlt := Params.highTicks_lt h v
  apply List.ext_getElem
  · rw [emitBit_length h, List.length_map, List.length_range]
  · intro j _ _
    simp only [emitBit, emit, List.getElem_append, List.length_replicate, List.getElem_replicate, List.getElem_map,
      List.getElem_range]
    split <;> simp [*]

theorem emitBit_getElem? {c : Params} (h : c.valid = true) (v : Bool) {j : Nat} (hj : j < c.tBit) :
    (emitBit c v)[j]? = some (decide (j < c.highTicks v)) := by
  rw [emitBit_eq_map_range h, List.getElem?_map, List.getElem?_range hj, Option.map_some]

theorem emitByte_eq_flatMap_range (c : Params) (x : Byte) :
    emitByte c x = (List.range 8).flatMap (fun k => emitBit c (x.getLsbD (7 - k))) :=
  List.flatMap_map ..

theorem State.emitFrame_frameBytes (s : State) :
    emitFrame s.params s.frameBytes = (List.range s.params.fbBytes).flatMap (fun p => emitByte s.params (s.fbByte p)) :=
  List.flatMap_map ..

/-- A transmission of a whole buffer takes the duration of the record (R106). -/
theorem State.transmitTrace_length {s : State} (hv : s.params.valid = true) :
    (transmitTrace s.params s.frameBytes).length = s.params.duration := by
  have hcount : 8 * s.frameBytes.length = 24 * s.params.ledCount := by
    rw [State.frameBytes_length, Params.fbBytes]
    omega
  simp only [transmitTrace, emitLatch, emit, List.length_append, List.length_replicate, emitFrame_length hv, hcount,
    Params.duration]

/-! ### A word held at the port -/

/-- Nothing more is presented, or a word is presented until it is accepted: a busy tick leaves such moves as they
are (R22). -/
def PortHeld (env : List Move) : Prop := env = [] ∨ ∃ w rest, env = .present w :: rest

/-- Every command goes through the handshake (R22). -/
theorem exec_eq_onCommand (i : Instr) (s : State) : ∃ effect, exec i s = onCommand s effect :=
  match i with
  | .init => ⟨_, exec_init_eq_onCommand s⟩
  | .setpixel idx r g b => ⟨_, exec_setpixel_eq_onCommand idx r g b s⟩
  | .clear => ⟨_, exec_clear_eq_onCommand s⟩
  | .transmit => ⟨startFrame, rfl⟩
  | .clearshow => ⟨fun s => startFrame s.zeroFilled, rfl⟩

/-- Every command shown while a transmission runs is held (R24). -/
theorem exec_busy {s : State} (hm : s.mode ≠ .idle) (i : Instr) : exec i s = quietTick s := by
  obtain ⟨effect, h⟩ := exec_eq_onCommand i s
  rw [h, onCommand_busy hm]

/-- So is every word, a reserved one included. -/
theorem runWord_busy {s : State} (hm : s.mode ≠ .idle) (w : CmdWord) : runWord w s = quietTick s := by
  unfold runWord
  split
  · exact exec_busy hm _
  · rfl

/-- A busy tick with the port held is the sequencer's step alone. -/
theorem step_of_portHeld {s : State} (hv : s.params.valid = true) (hm : s.mode ≠ .idle) (he : PortHeld s.env) :
    step s = advance s := by
  have hquiet : quietTick s = advance s := withValidParams_of_valid hv _
  obtain he | ⟨w, rest, he⟩ := he
  · simp only [step, tick, he, hquiet]
  · simp [step, tick, he, State.afterPresent, State.cmdReady_of_busy hm, runWord_busy hm, hquiet]

theorem line_of_portHeld {s : State} (he : PortHeld s.env) : s.line = s.dout := by
  obtain he | ⟨w, rest, he⟩ := he <;> simp [State.line, State.rstAsserted, he]

/-! ### Positions of the sequencer -/

/-- The transmission of `s` at tick `t` of its lead-in. -/
def State.leadAt (s : State) (t : Nat) : State := ((s.acquire.setSeq .lead 0 0 t).setSr 0).driveLine

/-- The transmission of `s` at tick `t` of bit `k` of byte `p`. -/
def State.sendAt (s : State) (p k t : Nat) : State :=
  ((s.acquire.setSeq .send p (Fin.ofNat 8 k) t).setSr (s.fbByte p <<< k)).driveLine

/-- The transmission of `s` at tick `t` of its latch delay. -/
def State.latchAt (s : State) (t : Nat) : State := ((s.acquire.setSeq .latch 0 0 t).setSr 0).driveLine

/-- The transmission of `s` is over and its frame recorded. -/
def State.finished (s : State) : State := (((s.setSeq .idle 0 0 0).setSr 0).release.recordFrame).driveLine

@[simp] theorem State.finished_params (s : State) : s.finished.params = s.params := rfl
@[simp] theorem State.finished_fb (s : State) : s.finished.fb = s.fb := rfl
@[simp] theorem State.finished_dout (s : State) : s.finished.dout = false := rfl
@[simp] theorem State.finished_mode (s : State) : s.finished.mode = .idle := rfl
@[simp] theorem State.finished_p (s : State) : s.finished.p = 0 := rfl
@[simp] theorem State.finished_k (s : State) : s.finished.k = 0 := rfl
@[simp] theorem State.finished_t (s : State) : s.finished.t = 0 := rfl
@[simp] theorem State.finished_sr (s : State) : s.finished.sr = 0 := rfl
@[simp] theorem State.finished_excl (s : State) : s.finished.excl = false := rfl
@[simp] theorem State.finished_env (s : State) : s.finished.env = s.env := rfl
@[simp] theorem State.finished_frameBytes (s : State) : s.finished.frameBytes = s.frameBytes := rfl

/-- The first tick of byte `p` is the first tick of its bit 0 (R14). -/
theorem State.sendAt_zero_zero (s : State) (p : Nat) : s.sendAt p 0 0 = s.acquire.atByte p := by
  simp only [State.sendAt, State.atByte, BitVec.shiftLeft_zero, State.acquire_fbByte]
  rfl

theorem State.started_of_lead {s : State} (h : s.params.tLead ≠ 0) : s.started = s.leadAt 0 := if_neg h

theorem State.started_of_no_lead {s : State} (h : s.params.tLead = 0) : s.started = s.sendAt 0 0 0 :=
  (if_pos h).trans (s.sendAt_zero_zero 0).symm

/-- While bit `k` is sent the line shows that bit of `FB[p]` (R104). -/
theorem State.sendAt_dout (s : State) (p t : Nat) {k : Nat} (hk : k < 8) :
    (s.sendAt p k t).dout = decide (t < s.params.highTicks ((s.fbByte p).getLsbD (7 - k))) := by
  have hbit : (s.fbByte p <<< k).getLsbD 7 = (s.fbByte p).getLsbD (7 - k) := by
    rw [BitVec.getLsbD_shiftLeft, decide_eq_true (by decide), decide_eq_false (by omega), Bool.not_false, Bool.true_and,
      Bool.true_and]
  rw [← hbit]
  rfl

/-! ### The tick that leaves each position -/

section Ticks

variable {s : State} (hv : s.params.valid = true) (he : PortHeld s.env)
include hv he

theorem step_leadAt (t : Nat) : step (s.leadAt t) = tickLead (s.leadAt t) :=
  step_of_portHeld (s := s.leadAt t) hv (by decide : Mode.lead ≠ .idle) he

theorem step_sendAt (p k t : Nat) : step (s.sendAt p k t) = tickSend (s.sendAt p k t) :=
  step_of_portHeld (s := s.sendAt p k t) hv (by decide : Mode.send ≠ .idle) he

theorem step_latchAt (t : Nat) : step (s.latchAt t) = tickLatch (s.latchAt t) :=
  step_of_portHeld (s := s.latchAt t) hv (by decide : Mode.latch ≠ .idle) he

theorem step_leadAt_of_lt {t : Nat} (h : t + 1 < s.params.tLead) : step (s.leadAt t) = .next (s.leadAt (t + 1)) :=
  (step_leadAt hv he t).trans (if_pos h)

theorem step_leadAt_of_last {t : Nat} (h : t + 1 = s.params.tLead) : step (s.leadAt t) = .next (s.sendAt 0 0 0) := by
  have hp : 0 < s.params.fbBytes := Nat.lt_of_lt_of_le (by decide) (Params.valid_fbBytes hv)
  rw [step_leadAt hv he, s.sendAt_zero_zero]
  calc tickLead (s.leadAt t) = beginByte (s.leadAt t) 0 := if_neg (Nat.not_lt.2 h.ge)
    _ = .next ((s.leadAt t).atByte 0) := beginByte_of_lt hp

theorem step_sendAt_of_lt (p k : Nat) {t : Nat} (h : t + 1 < s.params.tBit) :
    step (s.sendAt p k t) = .next (s.sendAt p k (t + 1)) :=
  (step_sendAt hv he p k t).trans (if_pos h)

theorem step_sendAt_of_bit (p : Nat) {k t : Nat} (h : t + 1 = s.params.tBit) (hk : k + 1 < 8) :
    step (s.sendAt p k t) = .next (s.sendAt p (k + 1) 0) := by
  have hk' : (Fin.ofNat 8 k).val < 7 := by
    rw [Fin.val_ofNat, Nat.mod_eq_of_lt (by omega)]
    omega
  have hsucc : Fin.ofNat 8 k + 1 = Fin.ofNat 8 (k + 1) := by simp [Fin.ext_iff, Fin.val_add]
  have hnext : (((s.sendAt p k t).setSeq .send p (Fin.ofNat 8 k + 1) 0).setSr (s.fbByte p <<< k <<< 1)).driveLine =
      s.sendAt p (k + 1) 0 := by
    rw [hsucc, ← BitVec.shiftLeft_add]
    rfl
  rw [step_sendAt hv he, ← hnext]
  exact (if_neg (Nat.not_lt.2 h.ge)).trans (if_pos hk')

/-- After bit 7 of a byte the next byte begins, or the latch delay after the last one. -/
theorem step_sendAt_of_byte (p : Nat) {k t : Nat} (h : t + 1 = s.params.tBit) (hk : k + 1 = 8) :
    step (s.sendAt p k t) = .next (if p + 1 < s.params.fbBytes then s.sendAt (p + 1) 0 0 else s.latchAt 0) := by
  obtain rfl : k = 7 := by omega
  have hstep : step (s.sendAt p 7 t) = if p + 1 < s.params.fbBytes then beginByte (s.sendAt p 7 t) (p + 1)
      else .next (s.latchAt 0) := by
    rw [step_sendAt hv he]
    exact (if_neg (Nat.not_lt.2 h.ge)).trans (if_neg (Nat.lt_irrefl 7))
  rw [hstep]
  split
  case isTrue hp =>
    rw [s.sendAt_zero_zero]
    exact beginByte_of_lt (s := s.sendAt p 7 t) hp
  case isFalse => rfl

theorem step_latchAt_of_lt {t : Nat} (h : t + 1 < s.params.tLatch) :
    step (s.latchAt t) = .next (s.latchAt (t + 1)) :=
  (step_latchAt hv he t).trans (if_pos h)

theorem step_latchAt_of_last {t : Nat} (h : t + 1 = s.params.tLatch) : step (s.latchAt t) = .next s.finished :=
  (step_latchAt hv he t).trans (if_neg (Nat.not_lt.2 h.ge))

/-! ### The loops of a transmission -/

theorem emits_leadAt (h : s.params.tLead ≠ 0) : Emits (s.leadAt 0) (emit false s.params.tLead) (s.sendAt 0 0 0) := by
  have hline (t : Nat) : (s.leadAt t).line = false := line_of_portHeld (s := s.leadAt t) he
  have hrun := Emits.count (f := s.leadAt) (Nat.pos_of_ne_zero h) (fun _ => step_leadAt_of_lt hv he)
    (fun _ => step_leadAt_of_last hv he)
  simpa only [hline, List.map_const', List.length_range, emit] using hrun

theorem emits_latchAt : Emits (s.latchAt 0) (emitLatch s.params) s.finished := by
  have hline (t : Nat) : (s.latchAt t).line = false := line_of_portHeld (s := s.latchAt t) he
  have hrun := Emits.count (f := s.latchAt) (Params.valid_latch hv) (fun _ => step_latchAt_of_lt hv he)
    (fun _ => step_latchAt_of_last hv he)
  simpa only [hline, List.map_const', List.length_range, emitLatch, emit] using hrun

/-- The ticks of bit `k` of byte `p` are its symbol, whatever state the last of them leads to. -/
theorem emits_bit (p : Nat) {k : Nat} (hk : k < 8) {t : State}
    (hlast : ∀ j, j + 1 = s.params.tBit → step (s.sendAt p k j) = .next t) :
    Emits (s.sendAt p k 0) (emitBit s.params ((s.fbByte p).getLsbD (7 - k))) t := by
  have hpos : 0 < s.params.tBit := Nat.zero_lt_of_lt (Params.highTicks_lt hv true)
  have hline (j : Nat) :
      (s.sendAt p k j).line = decide (j < s.params.highTicks ((s.fbByte p).getLsbD (7 - k))) :=
    (line_of_portHeld (s := s.sendAt p k j) he).trans (s.sendAt_dout p j hk)
  rw [emitBit_eq_map_range hv]
  simpa only [hline] using Emits.count hpos (fun _ => step_sendAt_of_lt hv he p k) hlast

theorem emits_byte (p : Nat) : Emits (s.sendAt p 0 0) (emitByte s.params (s.fbByte p))
    (if p + 1 < s.params.fbBytes then s.sendAt (p + 1) 0 0 else s.latchAt 0) := by
  rw [emitByte_eq_flatMap_range]
  exact .loop (f := fun k => s.sendAt p k 0) (by decide)
    (fun k hk => emits_bit hv he p (by omega) fun _ hj => step_sendAt_of_bit hv he p hj hk)
    (fun k hk => emits_bit hv he p (by omega) fun _ hj => step_sendAt_of_byte hv he p hj hk)

theorem emits_frame : Emits (s.sendAt 0 0 0) (emitFrame s.params s.frameBytes) (s.latchAt 0) := by
  have hpos : 0 < s.params.fbBytes := Nat.lt_of_lt_of_le (by decide) (Params.valid_fbBytes hv)
  rw [s.emitFrame_frameBytes]
  refine .loop (f := fun p => s.sendAt p 0 0) hpos (fun p hp => ?_) (fun p hp => ?_)
  · simpa only [if_pos hp] using emits_byte hv he p
  · simpa only [if_neg (Nat.not_lt.2 hp.ge)] using emits_byte hv he p

/-- An accepted transmission sends exactly the trace of R90 and then is over (R105). -/
theorem emits_started : Emits s.started (transmitTrace s.params s.frameBytes) s.finished := by
  have hsend : Emits (s.sendAt 0 0 0) (emitFrame s.params s.frameBytes ++ emitLatch s.params) s.finished :=
    (emits_frame hv he).append (emits_latchAt hv he)
  rw [transmitTrace, List.append_assoc]
  by_cases h : s.params.tLead = 0
  case pos =>
    rw [State.started_of_no_lead h, h]
    exact hsend
  case neg =>
    rw [State.started_of_lead h]
    exact (emits_leadAt hv he h).append hsend

end Ticks

/-! ### TRANSMIT presented in IDLE -/

/-- In IDLE the presented word is accepted in the tick it is shown, and withdrawn (R22). -/
theorem step_present_of_idle {s : State} {w : CmdWord} {rest : List Move} (hm : s.mode = .idle)
    (henv : s.env = .present w :: rest) : step s = runWord w (s.setEnv rest) := by
  simp only [step, tick, henv, State.afterPresent, State.cmdReady_of_idle hm, if_true]

theorem runWord_transmit {s : State} {w : CmdWord} (h : Ready s) (hw : decode w = .ok .transmit) :
    runWord w s = .next s.started := by
  obtain ⟨hv, hm⟩ := h
  simp only [runWord, hw, exec, execTransmit, onCommand_idle hv hm, startFrame_of_valid hv]

/-- A TRANSMIT presented in IDLE: the tick of acceptance at the level the line has, then the trace of R90. -/
theorem emits_transmit {s : State} {w : CmdWord} {rest : List Move} (h : Ready s) (hw : decode w = .ok .transmit)
    (henv : s.env = .present w :: rest) (hrest : PortHeld rest) :
    Emits s (s.dout :: transmitTrace s.params s.frameBytes) (s.setEnv rest).finished := by
  have hline : s.line = s.dout := line_of_portHeld (.inr ⟨w, rest, henv⟩)
  have haccept : step s = .next (s.setEnv rest).started :=
    (step_present_of_idle h.2 henv).trans (runWord_transmit (s := s.setEnv rest) h hw)
  rw [← hline]
  exact .tick haccept (emits_started (s := s.setEnv rest) h.1 hrest)

end Sys2Proof.Machine
end

section
/-! The statements about the transport: a symbol's levels (R96), and two TRANSMITs of one buffer (R107). -/

namespace Sys2Proof

open Sys2Proof.Machine

/-- Settles O20: the same run twice, the second from the state the first one ends in. -/
theorem repeatedTransmitSameWaveform : Obligations.RepeatedTransmitSameWaveform := by
  intro s w hinv hm hw henv
  have hready : Ready s := ⟨hinv.params_valid, hm⟩
  have hdout : s.dout = false := hinv.dout_level.trans (State.level_of_not_send (by simp [hm]))
  obtain ⟨hp, hk, ht, hsr⟩ := hinv.idle_zero hm
  have hexcl : s.excl = false := by simpa [hm] using hinv.excl_iff
  have hfirst := emits_transmit hready hw henv (.inr ⟨w, [], rfl⟩)
  have hsecond := emits_transmit (s := (s.setEnv [.present w]).finished) ⟨hready.1, rfl⟩ hw rfl (.inl rfl)
  have hrun := hfirst.append hsecond
  simp only [hdout, State.finished_dout, State.finished_params, State.finished_frameBytes, State.setEnv_params,
    State.setEnv_frameBytes] at hrun
  have hlen : (false :: transmitTrace s.params s.frameBytes).length = 1 + s.params.duration := by
    rw [List.length_cons, State.transmitTrace_length hready.1, Nat.add_comm]
  rw [← hlen, ← List.length_append]
  refine ⟨hrun.levels_eq, _, hrun.runTicks_eq, ?_⟩
  simp [hm, hp, hk, ht, hsr, hexcl, hdout]

/-- Settles O27, from the level of each tick of a symbol and the order of the record's tick counts (V1). -/
theorem symbolIsHighThenLow : Obligations.SymbolIsHighThenLow := by
  intro c v hv
  have hpos := Params.highTicks_pos hv v
  have hlt := Params.highTicks_lt hv v
  refine ⟨emitBit_length hv v, fun j => emitBit_getElem? hv v, ?first, ?last⟩
  case first =>
    rw [List.head?_eq_getElem?, emitBit_getElem? hv v (by omega), decide_eq_true hpos]
  case last =>
    rw [List.getLast?_eq_getElem?, emitBit_length hv v, emitBit_getElem? hv v (by omega), decide_eq_false (by omega)]

end Sys2Proof
end

section
/-! The command word: its fields and its packing undo each other (R50), what decoding a word says of its opcode (R51,
R53), the rows of the opcode map (R51), and the bits a command reads (R52). -/

namespace Sys2Proof

/-! ### Fields and packing (R50) -/

section Fields

variable (op idx r g b : Byte)

@[simp] theorem fieldOp_packWord : fieldOp (packWord op idx r g b) = op := by
  simp only [fieldOp, packWord, BitVec.extractLsb'_append_eq_of_le, BitVec.extractLsb'_eq_self, Nat.reduceLeDiff,
    Nat.reduceSub]

@[simp] theorem fieldIdx_packWord : fieldIdx (packWord op idx r g b) = idx := by
  simp only [fieldIdx, packWord, BitVec.extractLsb'_append_eq_of_le, BitVec.extractLsb'_append_eq_right,
    Nat.reduceLeDiff, Nat.reduceSub]

@[simp] theorem fieldR_packWord : fieldR (packWord op idx r g b) = r := by
  simp only [fieldR, packWord, BitVec.extractLsb'_append_eq_of_le, BitVec.extractLsb'_append_eq_right,
    Nat.reduceLeDiff, Nat.reduceSub]

@[simp] theorem fieldG_packWord : fieldG (packWord op idx r g b) = g := by
  simp only [fieldG, packWord, BitVec.extractLsb'_append_eq_of_le, BitVec.extractLsb'_append_eq_right,
    Nat.reduceLeDiff, Nat.reduceSub]

@[simp] theorem fieldB_packWord : fieldB (packWord op idx r g b) = b := BitVec.extractLsb'_append_eq_right

end Fields

theorem packWord_fields (w : CmdWord) :
    packWord (fieldOp w) (fieldIdx w) (fieldR w) (fieldG w) (fieldB w) = w := by
  simp only [packWord, fieldOp, fieldIdx, fieldR, fieldG, fieldB, BitVec.extractLsb'_append_extractLsb'_eq_extractLsb']
  exact BitVec.extractLsb'_eq_self

theorem packWord_and_packWord (op idx r g b op' idx' r' g' b' : Byte) :
    packWord op idx r g b &&& packWord op' idx' r' g' b' =
      packWord (op &&& op') (idx &&& idx') (r &&& r') (g &&& g') (b &&& b') := by
  simp only [packWord, ← BitVec.and_append]

/-- The mask of `OP` leaves the opcode, with the other fields zero (R51, R52). -/
theorem and_opMask (w : CmdWord) : w &&& 0xFF00000000 = packWord (fieldOp w) 0 0 0 0 := by
  have hmask : (0xFF00000000 : CmdWord) = packWord (BitVec.allOnes 8) 0#8 0#8 0#8 0#8 := by decide
  conv_lhs => rw [← packWord_fields w, hmask, packWord_and_packWord]
  simp only [BitVec.and_allOnes, BitVec.and_zero, BitVec.ofNat_eq_ofNat]

/-! ### Decoding by the opcode (R51, R53) -/

theorem decode_of_fieldOp_transmit {w : CmdWord} (h : fieldOp w = 0x04) : decode w = .ok .transmit := by
  simp [decode, h]

theorem decode_of_fieldOp_clearshow {w : CmdWord} (h : fieldOp w = 0x05) : decode w = .ok .clearshow := by
  simp [decode, h]

/-- Every opcode outside the map is reserved (R53). -/
theorem decode_of_fieldOp_reserved {w : CmdWord} (h : fieldOp w = 0 ∨ 5 < (fieldOp w).toNat) :
    decode w = .error (.reservedOpcode (fieldOp w)) := by
  have hne (op : Byte) (hop : 1 ≤ op.toNat ∧ op.toNat ≤ 5) : fieldOp w ≠ op := by
    rintro rfl
    obtain h | h := h
    · simp [h] at hop
    · omega
  rw [decode, if_neg (hne 1 (by decide)), if_neg (hne 2 (by decide)), if_neg (hne 3 (by decide)),
    if_neg (hne 4 (by decide)), if_neg (hne 5 (by decide))]

/-- A word decodes to a command by its opcode; SETPIXEL takes the other fields as they stand. -/
theorem decode_ok {w : CmdWord} {i : Instr} (h : decode w = .ok i) :
    (fieldOp w = 0x01 ∧ i = .init) ∨
    (fieldOp w = 0x02 ∧ i = .setpixel (fieldIdx w) (fieldR w) (fieldG w) (fieldB w)) ∨
    (fieldOp w = 0x03 ∧ i = .clear) ∨ (fieldOp w = 0x04 ∧ i = .transmit) ∨ (fieldOp w = 0x05 ∧ i = .clearshow) := by
  unfold decode at h
  split_ifs at h with h1 h2 h3 h4 h5 <;> injection h with h
  · exact .inl ⟨h1, h.symm⟩
  · exact .inr (.inl ⟨h2, h.symm⟩)
  · exact .inr (.inr (.inl ⟨h3, h.symm⟩))
  · exact .inr (.inr (.inr (.inl ⟨h4, h.symm⟩)))
  · exact .inr (.inr (.inr (.inr ⟨h5, h.symm⟩)))

theorem fieldOp_of_decode {w : CmdWord} {i : Instr} (h : decode w = .ok i) : fieldOp w = i.opcode := by
  obtain ⟨hop, rfl⟩ | ⟨hop, rfl⟩ | ⟨hop, rfl⟩ | ⟨hop, rfl⟩ | ⟨hop, rfl⟩ := decode_ok h <;> exact hop

theorem decode_encode (i : Instr) : decode (encode i) = .ok i := by
  cases i with
  | init => exact decode_of_fieldOp_init (fieldOp_packWord ..)
  | setpixel idx r g b => rw [encode, decode_of_fieldOp_setpixel (fieldOp_packWord ..), fieldIdx_packWord,
      fieldR_packWord, fieldG_packWord, fieldB_packWord]
  | clear => exact decode_of_fieldOp_clear (fieldOp_packWord ..)
  | transmit => exact decode_of_fieldOp_transmit (fieldOp_packWord ..)
  | clearshow => exact decode_of_fieldOp_clearshow (fieldOp_packWord ..)

/-- A word is the encoding of its command in the bits that command reads (R52). -/
theorem encode_of_decode {w : CmdWord} {i : Instr} (h : decode w = .ok i) : encode i = w &&& i.usedMask := by
  have hop : packWord i.opcode 0 0 0 0 = w &&& 0xFF00000000 := by rw [and_opMask, fieldOp_of_decode h]
  obtain ⟨-, rfl⟩ | ⟨hset, rfl⟩ | ⟨-, rfl⟩ | ⟨-, rfl⟩ | ⟨-, rfl⟩ := decode_ok h
  on_goal 2 =>
    rw [encode, ← hset, packWord_fields]
    exact BitVec.and_allOnes.symm
  all_goals exact hop

/-! ### The opcode map (R51) -/

/-- The row of the opcode map that stands for a command. -/
def Instr.row (i : Instr) : OpcodeRow :=
  { mnemonic := i.mnemonic, pattern := packWord i.opcode 0 0 0 0, mask := 0xFF00000000 }

/-- One command for each row of the opcode map. -/
def mapCommands : List Instr := [.init, .setpixel 0 0 0 0, .clear, .transmit, .clearshow]

theorem opcodeTable_eq_map_row : opcodeTable = mapCommands.map Instr.row := by decide

theorem row_covers_iff (i : Instr) (w : CmdWord) : i.row.covers w = true ↔ fieldOp w = i.opcode := by
  rw [OpcodeRow.covers, beq_iff_eq, Instr.row, and_opMask]
  constructor
  · intro h
    simpa only [fieldOp_packWord] using congrArg fieldOp h
  · intro h
    rw [h]

/-- Mnemonics name opcodes one to one. -/
theorem Instr.opcode_eq_of_mnemonic_eq {i j : Instr} (h : i.mnemonic = j.mnemonic) : i.opcode = j.opcode := by
  cases i <;> cases j <;> simp [Instr.mnemonic, Instr.opcode] at h ⊢

theorem decodes_to_mnemonic_iff (i : Instr) (w : CmdWord) :
    (∃ j, decode w = .ok j ∧ j.mnemonic = i.mnemonic) ↔ fieldOp w = i.opcode := by
  constructor
  · rintro ⟨j, hj, hm⟩
    rw [fieldOp_of_decode hj, Instr.opcode_eq_of_mnemonic_eq hm]
  · intro h
    cases i with
    | init => exact ⟨_, decode_of_fieldOp_init h, rfl⟩
    | setpixel idx r g b => exact ⟨_, decode_of_fieldOp_setpixel h, rfl⟩
    | clear => exact ⟨_, decode_of_fieldOp_clear h, rfl⟩
    | transmit => exact ⟨_, decode_of_fieldOp_transmit h, rfl⟩
    | clearshow => exact ⟨_, decode_of_fieldOp_clearshow h, rfl⟩

end Sys2Proof

namespace Sys2Proof.Machine

/-! ### The SETPIXEL line (R59) -/

theorem operandByte_toNat {n : Nat} (h : n ≤ 255) : (operandByte n).toNat = n :=
  Nat.mod_eq_of_lt (Nat.lt_succ_of_le h)

theorem setpixel_line_wf_iff (idx r g b : Nat) :
    (AsmLine.setpixel idx r g b).wf = true ↔ idx ≤ 255 ∧ r ≤ 255 ∧ g ≤ 255 ∧ b ≤ 255 := by
  simp [AsmLine.wf, isU8, and_assoc]

theorem lineWords_setpixel_of_wf (pal : Palette) {idx r g b : Nat} (h : (AsmLine.setpixel idx r g b).wf = true) :
    lineWords pal (.setpixel idx r g b) =
      some [packWord 0x02 (operandByte idx) (operandByte r) (operandByte g) (operandByte b)] := by
  simp only [lineWords, expandLine, if_pos h, Option.map_some, List.map_cons, List.map_nil, encode]

theorem lineWords_of_not_wf (pal : Palette) {l : AsmLine} (h : ¬ l.wf = true) : lineWords pal l = none := by
  simp only [lineWords, expandLine, if_neg h, Option.map_none]

end Sys2Proof.Machine
end

section
/-! The statements about the encoding: decoder and encoder (R50 to R54), the opcode map (R51), the SETPIXEL line
(R59). -/

namespace Sys2Proof

open Sys2Proof.Machine

/-- Settles O2, from the decoder by opcode on a packed word, and the mask of the bits a command reads. -/
theorem decodeInvertsEncode : Obligations.DecodeInvertsEncode := ⟨decode_encode, fun _ _ => encode_of_decode⟩

/-- Settles O3: covering by a row and decoding to its mnemonic both say that the word has the row's opcode. -/
theorem opcodeMapMatchesDecoder : Obligations.OpcodeMapMatchesDecoder := by
  rw [Obligations.OpcodeMapMatchesDecoder, opcodeTable_eq_map_row]
  refine ⟨?covers, ?disjoint⟩
  case covers =>
    intro row hrow w
    obtain ⟨i, -, rfl⟩ := List.mem_map.1 hrow
    exact (row_covers_iff i w).trans (decodes_to_mnemonic_iff i w).symm
  case disjoint =>
    have hopcodes : mapCommands.Pairwise (fun i j => i.opcode ≠ j.opcode) := by decide
    refine List.pairwise_map.2 (hopcodes.imp fun {i j} hne w ⟨hi, hj⟩ => hne ?_)
    rw [← (row_covers_iff i w).1 hi, ← (row_covers_iff j w).1 hj]

/-- Settles O4, from the fields of a packed word. -/
theorem decoderReadsFields : Obligations.DecoderReadsFields := by
  intro op idx r g b
  simp only [decode, fieldOp_packWord, fieldIdx_packWord, fieldR_packWord, fieldG_packWord, fieldB_packWord]

/-- Settles O1: the worked words are decoded by evaluation. -/
theorem workedEncodingsDecode : Obligations.WorkedEncodingsDecode := by
  unfold Obligations.WorkedEncodingsDecode
  decide

/-- Settles O6, by whether every operand is at most 255. -/
theorem setpixelLineAssembles : Obligations.SetpixelLineAssembles := by
  intro pal idx r g b
  refine ⟨fun hwf => ?fits, fun hwide => lineWords_of_not_wf pal ?wide⟩
  case fits =>
    obtain ⟨hidx, hr, hg, hb⟩ := (setpixel_line_wf_iff idx r g b).1 hwf
    refine ⟨_, lineWords_setpixel_of_wf pal hwf, fieldOp_packWord .., ?_⟩
    simp only [fieldIdx_packWord, fieldR_packWord, fieldG_packWord, fieldB_packWord, operandByte_toNat hidx,
      operandByte_toNat hr, operandByte_toNat hg, operandByte_toNat hb, and_self]
  case wide =>
    rw [setpixel_line_wf_iff]
    omega

end Sys2Proof
end

section
/-! Reading the trace of a transmission (R97, R108): its rising edges, the HIGH ticks after each of them, and the bytes
its bits are grouped into. -/

namespace Sys2Proof.Machine

/-! ### The trace as symbols -/

theorem transmitTrace_eq_flatMap_emitBit (c : Params) (bytes : List Byte) :
    transmitTrace c bytes =
      emit false c.tLead ++ ((frameBits bytes).flatMap (emitBit c) ++ emit false c.tLatch) := by
  rw [transmitTrace, emitFrame_eq_flatMap_emitBit, emitLatch, List.append_assoc]

/-- Leaving out whole blocks from the front of a list of blocks of one length. -/
theorem drop_flatMap_of_length_eq {α β : Type} {f : α → List β} {n : Nat} (hf : ∀ x, (f x).length = n) (l : List α)
    (i : Nat) : (l.flatMap f).drop (i * n) = (l.drop i).flatMap f := by
  induction l generalizing i with
  | nil => simp
  | cons x xs ih =>
    cases i with
    | zero => simp
    | succ i =>
      rw [List.flatMap_cons, Nat.succ_mul, Nat.add_comm, ← List.drop_drop, List.drop_left' (hf x), ih, List.drop_succ_cons]

/-! ### Rising edges (R97) -/

/-- Ticks at the level the line already has make no edge. -/
theorem risingEdgesFrom_emit_same (l : Bool) (start n : Nat) (rest : Trace) :
    risingEdgesFrom l start (emit l n ++ rest) = risingEdgesFrom l (start + n) rest := by
  induction n generalizing start with
  | zero => rfl
  | succ n ih =>
    have hstep : risingEdgesFrom l start (emit l (n + 1) ++ rest) = risingEdgesFrom l (start + 1) (emit l n ++ rest) := by
      simp [emit, List.replicate_succ, risingEdgesFrom]
    rw [hstep, ih, Nat.add_right_comm, Nat.add_assoc]

/-- A pulse of HIGH ticks after a LOW one makes one edge, where it begins. -/
theorem risingEdgesFrom_emit_true {n : Nat} (hn : 0 < n) (start : Nat) (rest : Trace) :
    risingEdgesFrom false start (emit true n ++ rest) = start :: risingEdgesFrom true (start + n) rest := by
  obtain ⟨m, rfl⟩ : ∃ m, n = m + 1 := ⟨n - 1, by omega⟩
  have hedge : risingEdgesFrom false start (emit true (m + 1) ++ rest) =
      start :: risingEdgesFrom true (start + 1) (emit true m ++ rest) := rfl
  rw [hedge, risingEdgesFrom_emit_same, Nat.add_right_comm, Nat.add_assoc]

/-- LOW ticks after a HIGH one make no edge. -/
theorem risingEdgesFrom_emit_false {n : Nat} (hn : 0 < n) (start : Nat) (rest : Trace) :
    risingEdgesFrom true start (emit false n ++ rest) = risingEdgesFrom false (start + n) rest := by
  obtain ⟨m, rfl⟩ : ∃ m, n = m + 1 := ⟨n - 1, by omega⟩
  have hfall : risingEdgesFrom true start (emit false (m + 1) ++ rest) =
      risingEdgesFrom false (start + 1) (emit false m ++ rest) := rfl
  rw [hfall, risingEdgesFrom_emit_same, Nat.add_right_comm, Nat.add_assoc]

/-- A symbol makes one edge, at its first tick, and leaves the line LOW (R96, R97). -/
theorem risingEdgesFrom_emitBit {c : Params} (h : c.valid = true) (v : Bool) (start : Nat) (rest : Trace) :
    risingEdgesFrom false start (emitBit c v ++ rest) = start :: risingEdgesFrom false (start + c.tBit) rest := by
  have hlt := Params.highTicks_lt h v
  rw [emitBit, List.append_assoc, risingEdgesFrom_emit_true (Params.highTicks_pos h v),
    risingEdgesFrom_emit_false (by omega), Nat.add_assoc, Nat.add_sub_cancel' hlt.le]

theorem risingEdgesFrom_symbols {c : Params} (h : c.valid = true) (bits : List Bool) (start n : Nat) :
    risingEdgesFrom false start (bits.flatMap (emitBit c) ++ emit false n) =
      (List.range bits.length).map (fun j => start + j * c.tBit) := by
  induction bits generalizing start with
  | nil => simpa [risingEdgesFrom] using risingEdgesFrom_emit_same false start n []
  | cons v vs ih =>
    rw [List.flatMap_cons, List.append_assoc, risingEdgesFrom_emitBit h, ih, List.length_cons, List.range_succ_eq_map,
      List.map_cons, List.map_map, Nat.zero_mul, Nat.add_zero]
    simp only [Function.comp_def, Nat.succ_mul, Nat.add_assoc, Nat.add_comm c.tBit]

theorem risingEdges_transmitTrace {c : Params} (h : c.valid = true) (bytes : List Byte) :
    risingEdges (transmitTrace c bytes) =
      (List.range (frameBits bytes).length).map (fun j => c.tLead + j * c.tBit) := by
  rw [risingEdges, transmitTrace_eq_flatMap_emitBit, risingEdgesFrom_emit_same, risingEdgesFrom_symbols h, Nat.zero_add]

/-! ### HIGH ticks after an edge (R108) -/

/-- At rising edge `j` what remains of the trace begins with the symbol of bit `j`. -/
theorem transmitTrace_drop {c : Params} (h : c.valid = true) (bytes : List Byte) {j : Nat}
    (hj : j < (frameBits bytes).length) :
    ∃ rest, (transmitTrace c bytes).drop (c.tLead + j * c.tBit) = emitBit c (frameBits bytes)[j] ++ rest := by
  have hlen : j * c.tBit ≤ ((frameBits bytes).flatMap (emitBit c)).length := by
    rw [length_flatMap_of_length_eq (emitBit_length h), Nat.mul_comm c.tBit]
    exact Nat.mul_le_mul_right _ hj.le
  have hlead : (emit false c.tLead).length = c.tLead := List.length_replicate
  refine ⟨((frameBits bytes).drop (j + 1)).flatMap (emitBit c) ++ emit false c.tLatch, ?_⟩
  rw [transmitTrace_eq_flatMap_emitBit, ← List.drop_drop, List.drop_left' hlead, List.drop_append_of_le_length hlen,
    drop_flatMap_of_length_eq (emitBit_length h), List.drop_eq_getElem_cons hj, List.flatMap_cons, List.append_assoc]

/-- A symbol is HIGH for the ticks of its bit and then LOW for at least one (R96). -/
theorem takeWhile_emitBit_length {c : Params} (h : c.valid = true) (v : Bool) (rest : Trace) :
    ((emitBit c v ++ rest).takeWhile id).length = c.highTicks v := by
  have hlt := Params.highTicks_lt h v
  obtain ⟨m, hm⟩ : ∃ m, c.tBit - c.highTicks v = m + 1 := ⟨c.tBit - c.highTicks v - 1, by omega⟩
  have hhigh : ∀ l ∈ emit true (c.highTicks v), id l = true := fun l hl => List.eq_of_mem_replicate hl
  rw [emitBit, hm, List.append_assoc, List.takeWhile_append_of_pos hhigh]
  simp [emit, List.replicate_succ]

theorem highRun_transmitTrace {c : Params} (h : c.valid = true) (bytes : List Byte) {j : Nat}
    (hj : j < (frameBits bytes).length) :
    highRun (transmitTrace c bytes) (c.tLead + j * c.tBit) = c.highTicks (frameBits bytes)[j] := by
  obtain ⟨rest, hrest⟩ := transmitTrace_drop h bytes hj
  rw [highRun, hrest, takeWhile_emitBit_length h]

/-- The HIGH ticks of a symbol tell its bit, since `T0H < T1H` (V1). -/
theorem highTicks_eq_t1h_iff {c : Params} (h : c.valid = true) (v : Bool) : c.highTicks v = c.t1h ↔ v = true := by
  obtain ⟨-, hlt, -⟩ := Params.valid_order h
  cases v
  · simpa [Params.highTicks] using hlt.ne
  · simp [Params.highTicks]

theorem traceBits_transmitTrace {c : Params} (h : c.valid = true) (bytes : List Byte) :
    traceBits c (transmitTrace c bytes) = frameBits bytes := by
  rw [traceBits, risingEdges_transmitTrace h, List.map_map]
  apply List.ext_getElem
  · rw [List.length_map, List.length_range]
  · intro j _ hj
    simp only [List.getElem_map, List.getElem_range, Function.comp_apply, highRun_transmitTrace h bytes hj,
      highTicks_eq_t1h_iff h, Bool.decide_eq_true]

/-! ### Bytes from bits -/

/-- Eight bits, most significant first, make the byte they came from (R95, R108). -/
theorem byteOfBits_byteBits (x : Byte) : byteOfBits (byteBits x) = x := by
  revert x
  decide

theorem bytesOfBits_byteBits_append (x : Byte) (bits : List Bool) :
    bytesOfBits (byteBits x ++ bits) = x :: bytesOfBits bits := by
  have h : bytesOfBits (byteBits x ++ bits) = byteOfBits (byteBits x) :: bytesOfBits bits := rfl
  rw [h, byteOfBits_byteBits]

theorem bytesOfBits_frameBits (bytes : List Byte) : bytesOfBits (frameBits bytes) = bytes := by
  induction bytes with
  | nil => rfl
  | cons x xs ih =>
    rw [frameBits, List.flatMap_cons, ← frameBits, bytesOfBits_byteBits_append, ih]

/-! ### The LOW ticks after the last pulse (R100) -/

theorem emitBit_head? {c : Params} (h : c.valid = true) (v : Bool) (rest : Trace) :
    (emitBit c v ++ rest).head? = some true := by
  obtain ⟨m, hm⟩ : ∃ m, c.highTicks v = m + 1 := ⟨c.highTicks v - 1, by have := Params.highTicks_pos h v; omega⟩
  rw [emitBit, hm]
  rfl

theorem frameBits_ne_nil {bytes : List Byte} (h : bytes ≠ []) : frameBits bytes ≠ [] := by
  have hlen : 0 < bytes.length := List.length_pos_iff.2 h
  rw [← List.length_pos_iff, frameBits_length]
  omega

/-- A nonempty row of symbols begins HIGH, and is LOW after the last pulse for the rest of the last bit period. -/
theorem flatMap_emitBit_split {c : Params} (h : c.valid = true) {bits : List Bool} (hne : bits ≠ []) :
    ∃ (body : Trace) (v : Bool), bits.flatMap (emitBit c) = body ++ emit false (c.tBit - c.highTicks v) ∧
      body.head? = some true ∧ body.getLast? = some true := by
  obtain ⟨vs, v, rfl⟩ := List.eq_nil_or_concat' bits |>.resolve_left hne
  have hpos := Params.highTicks_pos h v
  refine ⟨vs.flatMap (emitBit c) ++ emit true (c.highTicks v), v, ?split, ?first, ?last⟩
  case split =>
    rw [List.flatMap_append, List.flatMap_singleton, emitBit, List.append_assoc]
  case first =>
    cases vs with
    | nil => simp [emit, List.head?_replicate, hpos.ne']
    | cons u us => rw [List.flatMap_cons, List.append_assoc, emitBit_head? h]
  case last => simp [emit, List.getLast?_append, List.getLast?_replicate, hpos.ne']

end Sys2Proof.Machine
end

section
/-! The statements about the trace of a transmission: its edges (R97), reading it back (R108), the rest after it
(R100). -/

namespace Sys2Proof

open Sys2Proof.Machine

/-- Settles O30: the HIGH ticks after rising edge `j` tell bit `j`, and eight bits at a time give the bytes. -/
theorem traceReadsBack : Obligations.TraceReadsBack := by
  intro c bytes hv
  rw [readBack, traceBits_transmitTrace hv, bytesOfBits_frameBits]

/-- Settles O29: each symbol rises once, at its first tick. -/
theorem risingEdgesOnePeriodApart : Obligations.RisingEdgesOnePeriodApart := by
  intro c bytes hv
  rw [risingEdges_transmitTrace hv, frameBits_length]

/-- Settles O31, by splitting the last symbol into its pulse and the LOW ticks that run into the latch delay. -/
theorem lineRestsLowAfterFrame : Obligations.LineRestsLowAfterFrame := by
  intro c bytes hv hne
  obtain ⟨body, v, hsplit, hfirst, hlast⟩ := flatMap_emitBit_split hv (frameBits_ne_nil hne)
  refine ⟨body, c.tBit - c.highTicks v + c.tLatch, ?trace, hfirst, hlast, ?bound⟩
  case trace =>
    rw [transmitTrace_eq_flatMap_emitBit, hsplit]
    simp only [emit, List.append_assoc, List.replicate_append_replicate]
  case bound =>
    have hle : c.highTicks v ≤ c.t1h := by
      obtain ⟨-, hlt, -⟩ := Params.valid_order hv
      cases v
      · exact hlt.le
      · exact le_rfl
    omega

end Sys2Proof
end

section
/-! The scaling law's bounds (R74), the SETCOLOR line (R60, R75), and the validity check in exact rationals (R6). -/

namespace Sys2Proof.Machine

/-! ### The scaling law (R74) -/

/-- The product of two bytes fits 16 bits. -/
theorem mul_toNat_lt (p s : Byte) : p.toNat * s.toNat < 65536 :=
  Nat.mul_lt_mul'' p.isLt s.isLt

theorem scaleChannel_mono {p p' s s' : Byte} (hp : p.toNat ≤ p'.toNat) (hs : s.toNat ≤ s'.toNat) :
    (scaleChannel p s).toNat ≤ (scaleChannel p' s').toNat := by
  rw [scaleChannel_toNat, scaleChannel_toNat]
  exact Nat.div_le_div_right (Nat.mul_le_mul hp hs)

/-! ### SETCOLOR (R60, R75) -/

theorem expandLine_setcolor (pal : Palette) {idx cidx bright : Nat} (hi : idx ≤ 255) (hc : cidx ≤ 255)
    (hb : bright ≤ 255) :
    expandLine pal (.setcolor idx cidx bright) =
      some [setpixelTo idx (resolveColor pal (operandByte cidx) (operandByte bright))] := by
  have hwf : (AsmLine.setcolor idx cidx bright).wf = true := by simp [AsmLine.wf, isU8, hi, hc, hb]
  simp only [expandLine, if_pos hwf]

/-- In range the pixel named reads back as the one given (R82). -/
theorem exec_setpixelTo_of_inRange {s : State} {idx : Nat} (px : Pixel) (h : Ready s) (hidx : idx ≤ 255)
    (hi : idx < s.params.ledCount) : ∃ t, exec (setpixelTo idx px) s = .next t ∧ t.pixel idx = px := by
  have hbyte : (operandByte idx).toNat = idx := operandByte_toNat hidx
  refine ⟨_, exec_setpixel_of_inRange px.r px.g px.b h (hbyte.symm ▸ hi), ?_⟩
  simpa only [hbyte, pixelAddress, pixelIndex] using s.pixel_setFb_pixelCells (operandByte idx) px.r px.g px.b

theorem exec_setpixelTo_of_outOfRange {s : State} {idx : Nat} (px : Pixel) (h : Ready s) (hidx : idx ≤ 255)
    (hi : s.params.ledCount ≤ idx) : exec (setpixelTo idx px) s = .next s :=
  exec_setpixel_of_outOfRange px.r px.g px.b h ((operandByte_toNat hidx).symm ▸ hi)

end Sys2Proof.Machine

namespace Sys2Proof.Params

/-! ### Validity in exact rationals (R6) -/

/-- A natural-number comparison multiplied through by `F_CLK` is the comparison of the rational durations. -/
theorem within_iff {c : Params} (hf : 0 < c.fClk) (ticks nominal tol : Nat) :
    c.within ticks nominal tol = true ↔ |(ticks : ℚ) * 10 ^ 9 / c.fClk - nominal| ≤ (tol : ℚ) := by
  have hf' : (0 : ℚ) < c.fClk := by exact_mod_cast hf
  have hupper : (ticks : ℚ) * 10 ^ 9 / c.fClk - nominal ≤ tol ↔ ticks * 1000000000 ≤ (nominal + tol) * c.fClk := by
    rw [sub_le_iff_le_add', div_le_iff₀ hf']
    norm_cast
  have hlower : nominal - (ticks : ℚ) * 10 ^ 9 / c.fClk ≤ tol ↔
      nominal * c.fClk ≤ ticks * 1000000000 + tol * c.fClk := by
    rw [sub_le_iff_le_add', div_add' _ _ _ hf'.ne', le_div_iff₀ hf']
    norm_cast
  rw [within, Bool.and_eq_true, decide_eq_true_eq, decide_eq_true_eq, abs_sub_le_iff, hupper, hlower]

theorem v5_iff {c : Params} (hf : 0 < c.fClk) :
    c.v5 = true ↔ (300000 : ℚ) ≤ (c.tLatch : ℚ) * 10 ^ 9 / c.fClk := by
  have hf' : (0 : ℚ) < c.fClk := by exact_mod_cast hf
  rw [v5, decide_eq_true_eq, le_div_iff₀ hf']
  norm_cast

/-- A clock of 0 Hz gives every duration the value 0, which is not within 150 ns of 400 ns. -/
theorem clock_pos_of_t0h_within {c : Params} (h : |(c.t0h : ℚ) * 10 ^ 9 / c.fClk - 400| ≤ 150) : 0 < c.fClk := by
  rw [Nat.pos_iff_ne_zero]
  intro h0
  norm_num [h0] at h

end Sys2Proof.Params
end

section
/-! The statements about the resolver's bounds (R74), SETCOLOR (R75) and the parameter record's validity (R6). -/

namespace Sys2Proof

open Sys2Proof.Machine

/-- Settles O34, from the scaling law on natural numbers. -/
theorem scalingIsMonotone : Obligations.ScalingIsMonotone :=
  ⟨mul_toNat_lt, fun _ _ _ hs => scaleChannel_mono le_rfl hs, fun _ _ _ hp => scaleChannel_mono hp le_rfl⟩

/-- Settles O35: the line's one command is SETPIXEL with the resolved colour. -/
theorem setcolorResolvesThenWrites : Obligations.SetcolorResolvesThenWrites := by
  intro pal idx cidx bright s h hi hc hb
  refine ⟨_, expandLine_setcolor pal hi hc hb, fun hin => ?inRange, exec_setpixelTo_of_outOfRange _ h hi⟩
  case inRange =>
    obtain ⟨t, hexec, hpixel⟩ :=
      exec_setpixelTo_of_inRange (resolveColor pal (operandByte cidx) (operandByte bright)) h hi hin
    refine ⟨t, hexec, hpixel, fun hbad => ?_⟩
    have hcidx : 7 < (operandByte cidx).toNat := (operandByte_toNat hc).symm ▸ hbad
    rw [hpixel, resolveColor_of_gt pal _ hcidx]
    exact resolveColor_zero pal _

/-- Settles O36: with a clock each of V2 to V5 is its comparison of exact durations; without one both sides fail. -/
theorem validityIsExactRational : Obligations.ValidityIsExactRational := by
  intro c
  by_cases hf : 0 < c.fClk
  case pos =>
    simp only [Params.valid, Params.v1, Params.v2, Params.v3, Params.v4, Params.v5_iff hf, Params.v6,
      Params.within_iff hf, Bool.and_eq_true, decide_eq_true_eq, and_assoc, Nat.cast_ofNat]
  case neg =>
    exact iff_of_false (fun hvalid => hf (Params.valid_clock hvalid))
      fun ⟨_, ht0h, _⟩ => hf (Params.clock_pos_of_t0h_within ht0h)

end Sys2Proof
end

section
/-! One tick as a whole (R22 to R24, R104): what each move leads to, the state each command leads to in IDLE, the
sequencer's tick at each position, and one lemma that says everything a step can do. -/

namespace Sys2Proof.Machine

/-! ### The tick of each move (R22 to R24, R127, R132) -/

section Moves

variable {s : State} {rest : List Move}

theorem step_of_nil (h : s.env = []) : step s = quietTick s := by simp only [step, tick, h]

theorem step_wait (h : s.env = .wait :: rest) : step s = quietTick (s.setEnv rest) := by simp only [step, tick, h]

theorem step_offer {w : CmdWord} (h : s.env = .offer w :: rest) : step s = runWord w (s.setEnv rest) := by
  simp only [step, tick, h]

theorem step_present {w : CmdWord} (h : s.env = .present w :: rest) : step s = runWord w (s.afterPresent rest) := by
  simp only [step, tick, h]

/-- While a transmission runs the presented word stays presented (R22). -/
theorem step_present_of_busy {w : CmdWord} (hm : s.mode ≠ .idle) (h : s.env = .present w :: rest) :
    step s = runWord w s := by
  rw [step_present h, State.afterPresent, State.cmdReady_of_busy hm, if_neg Bool.false_ne_true]

theorem step_assertRst {cmd : Option CmdWord} (h : s.env = .assertRst cmd :: rest) :
    step s = resetTick (s.setEnv rest) := by
  simp only [step, tick, h]

theorem step_takeInterrupt (h : s.env = .takeInterrupt :: rest) : step s = interruptTick (s.setEnv rest) := by
  simp only [step, tick, h]

theorem step_stallClock (h : s.env = .stallClock :: rest) : step s = stalledTick (s.setEnv rest) := by
  simp only [step, tick, h]

theorem step_writeFb {a : Nat} {v : Byte} (h : s.env = .writeFb a v :: rest) : step s = .refused .foreignWrite := by
  simp only [step, tick, h]

end Moves

theorem quietTick_of_valid {s : State} (hv : s.params.valid = true) : quietTick s = advance s :=
  withValidParams_of_valid hv _

theorem advance_of_idle {s : State} (hm : s.mode = .idle) : advance s = .next s := by simp only [advance, hm]

theorem step_of_nil_of_valid {s : State} (hv : s.params.valid = true) (henv : s.env = []) : step s = advance s := by
  rw [step_of_nil henv, quietTick_of_valid hv]

/-! ### A word placed at the port (R25) -/

theorem decode_of_decodeTableWord {w : Nat} {i : Instr} (h : decodeTableWord 40 w = some i) :
    decode (BitVec.ofNat 40 (w % 2 ^ 40)) = .ok i := by
  unfold decodeTableWord at h
  split at h
  case h_1 j hj =>
    injection h with h
    rw [hj, h]
  case h_2 => cases h

theorem State.parked_mode (s : State) : s.parked.mode = .idle := by
  unfold State.parked
  split
  case isTrue hready => exact s.cmdReady_iff.1 hready
  case isFalse => rfl

theorem State.parked_of_idle {s : State} (hm : s.mode = .idle) : s.parked = s := if_pos (State.cmdReady_of_idle hm)

theorem State.parked_env (s : State) : s.parked.env = s.env := by
  unfold State.parked
  split <;> rfl

/-! ### The state each command leads to in IDLE (R80 to R91) -/

/-- The state after a command has been accepted. -/
def State.executed (s : State) : Instr → State
  | .init => s.zeroFilled
  | .setpixel idx r g b =>
    if indexInRange s.params idx then s.setFb (s.fb.writeAll (pixelCells (pixelAddress idx) r g b)) else s
  | .clear => s.zeroFilled
  | .transmit => s.started
  | .clearshow => s.zeroFilled.started

theorem State.executed_setpixel (s : State) (idx r g b : Byte) :
    s.executed (.setpixel idx r g b) =
      if indexInRange s.params idx then s.setFb (s.fb.writeAll (pixelCells (pixelAddress idx) r g b)) else s := rfl

/-- TRANSMIT is a command shown at the port (R90). -/
theorem exec_transmit_eq_onCommand (s : State) : exec .transmit s = onCommand s startFrame := rfl

/-- CLEARSHOW is a command shown at the port: CLEAR's effect, then TRANSMIT's (R91). -/
theorem exec_clearshow_eq_onCommand (s : State) :
    exec .clearshow s = onCommand s fun s => startFrame s.zeroFilled := rfl

theorem exec_of_ready {s : State} (h : Ready s) (i : Instr) : exec i s = .next (s.executed i) := by
  have ⟨hv, hm⟩ := h
  cases i with
  | init => exact exec_init_of_ready h
  | setpixel idx r g b =>
    rw [exec_setpixel_eq_onCommand, onCommand_idle hv hm, State.executed_setpixel]
    split <;> rfl
  | clear => exact exec_clear_of_ready h
  | transmit =>
    rw [exec_transmit_eq_onCommand, onCommand_idle hv hm, startFrame_of_valid hv, State.executed]
  | clearshow =>
    rw [exec_clearshow_eq_onCommand, onCommand_idle hv hm, startFrame_of_valid (s := s.zeroFilled) hv, State.executed]

/-- Whatever the command, an answer comes from its execution in IDLE or from the sequencer. -/
theorem exec_next {s t : State} {i : Instr} (h : exec i s = .next t) :
    s.params.valid = true ∧ (s.mode = .idle ∧ t = s.executed i ∨ advance s = .next t) := by
  obtain ⟨effect, heffect⟩ := exec_eq_onCommand i s
  obtain ⟨hv, ⟨hm, -⟩ | ⟨-, hadvance⟩⟩ := onCommand_next (heffect ▸ h)
  · rw [exec_of_ready ⟨hv, hm⟩] at h
    injection h with h
    exact ⟨hv, .inl ⟨hm, h.symm⟩⟩
  · exact ⟨hv, .inr hadvance⟩

theorem runWord_of_decode {w : CmdWord} {i : Instr} (h : decode w = .ok i) (s : State) : runWord w s = exec i s := by
  simp only [runWord, h]

/-- A reserved word is a no-op (R53). -/
theorem runWord_of_reserved {w : CmdWord} (h : fieldOp w = 0 ∨ 5 < (fieldOp w).toNat) (s : State) :
    runWord w s = quietTick s := by
  simp only [runWord, decode_of_fieldOp_reserved h]

theorem runWord_next {s t : State} {w : CmdWord} (h : runWord w s = .next t) :
    s.params.valid = true ∧
      ((∃ i, decode w = .ok i ∧ s.mode = .idle ∧ t = s.executed i) ∨ advance s = .next t) := by
  unfold runWord at h
  split at h
  case h_1 i hi =>
    obtain ⟨hv, ⟨hm, ht⟩ | hadvance⟩ := exec_next h
    · exact ⟨hv, .inl ⟨i, hi, hm, ht⟩⟩
    · exact ⟨hv, .inr hadvance⟩
  case h_2 =>
    obtain ⟨hv, hadvance⟩ := withValidParams_next h
    exact ⟨hv, .inr hadvance⟩

/-! ### Everything a step can do -/

/-- Whence a step that answers `t` can come: `RST`, the sequencer's own tick, or a command accepted in IDLE. In each
the host's and the environment's moves may have changed first. -/
inductive StepCase (s t : State) : Prop
  | reset (env : List Move) (hrst : s.rstAsserted = true) (ht : t = (s.setEnv env).afterReset)
  | quiet (env : List Move) (hrst : s.rstAsserted = false) (hadvance : advance (s.setEnv env) = .next t)
  | accepted (env : List Move) (w : CmdWord) (i : Instr) (hrst : s.rstAsserted = false) (hm : s.mode = .idle)
      (hw : shownWord s = some w) (hi : decode w = .ok i) (ht : t = (s.setEnv env).executed i)

theorem StepCase.of_quietTick {s t : State} {env : List Move} (hrst : s.rstAsserted = false)
    (h : quietTick (s.setEnv env) = .next t) : s.params.valid = true ∧ StepCase s t := by
  obtain ⟨hv, hadvance⟩ := withValidParams_next h
  exact ⟨hv, .quiet env hrst hadvance⟩

theorem StepCase.of_runWord {s t : State} {env : List Move} {w : CmdWord} (hrst : s.rstAsserted = false)
    (hw : shownWord s = some w) (h : runWord w (s.setEnv env) = .next t) : s.params.valid = true ∧ StepCase s t := by
  obtain ⟨hv, ⟨i, hi, hm, ht⟩ | hadvance⟩ := runWord_next h
  · exact ⟨hv, .accepted env w i hrst hm hw hi ht⟩
  · exact ⟨hv, .quiet env hrst hadvance⟩

theorem State.afterPresent_eq_setEnv (s : State) (rest : List Move) : ∃ env, s.afterPresent rest = s.setEnv env := by
  unfold State.afterPresent
  split
  · exact ⟨rest, rfl⟩
  · exact ⟨s.env, rfl⟩

theorem step_next {s t : State} (h : step s = .next t) : s.params.valid = true ∧ StepCase s t := by
  cases henv : s.env with
  | nil =>
    have hself : s.setEnv [] = s := henv ▸ rfl
    rw [step_of_nil henv, ← hself] at h
    exact StepCase.of_quietTick (by simp [State.rstAsserted, henv]) h
  | cons m rest =>
    cases m with
    | wait => exact StepCase.of_quietTick (by simp [State.rstAsserted, henv]) (step_wait henv ▸ h)
    | offer w =>
      exact StepCase.of_runWord (by simp [State.rstAsserted, henv]) (by simp [shownWord, henv]) (step_offer henv ▸ h)
    | present w =>
      obtain ⟨env, hpresent⟩ := s.afterPresent_eq_setEnv rest
      rw [step_present henv, hpresent] at h
      exact StepCase.of_runWord (by simp [State.rstAsserted, henv]) (by simp [shownWord, henv]) h
    | assertRst cmd =>
      obtain ⟨hv, ht⟩ := withValidParams_next (step_assertRst henv ▸ h)
      injection ht with ht
      exact ⟨hv, .reset rest (by simp [State.rstAsserted, henv]) ht.symm⟩
    | takeInterrupt =>
      rw [step_takeInterrupt henv, interruptTick] at h
      split at h
      · cases h
      · exact StepCase.of_quietTick (by simp [State.rstAsserted, henv]) h
    | stallClock =>
      rw [step_stallClock henv, stalledTick] at h
      split at h
      case isTrue hready =>
        obtain ⟨hv, ht⟩ := withValidParams_next h
        have hm : (s.setEnv rest).mode = .idle := (s.setEnv rest).cmdReady_iff.1 hready
        exact ⟨hv, .quiet rest (by simp [State.rstAsserted, henv]) ((advance_of_idle hm).trans ht)⟩
      case isFalse => cases h
    | writeFb a v =>
      rw [step_writeFb henv] at h
      cases h

end Sys2Proof.Machine
end

section
/-! What the sequencer's tick and a command leave unchanged, the sequencer's tick at each position (R104), and when a
step answers (R25, R132). -/

namespace Sys2Proof.Machine

/-! ### TRANSMIT accepted (R90, R103) -/

section Started

variable (s : State)

/-- The two ways to start, as one position (R103): the first tick of byte 0, or of the lead-in. -/
theorem State.started_cases :
    (s.params.tLead = 0 ∧ s.started = s.acquire.atByte 0) ∨
    (s.params.tLead ≠ 0 ∧ s.started = ((s.acquire.setSeq .lead 0 0 0).setSr 0).driveLine) := by
  unfold State.started
  split
  · exact .inl ⟨‹_›, rfl⟩
  · exact .inr ⟨‹_›, rfl⟩

@[simp] theorem State.started_params : s.started.params = s.params := by
  obtain ⟨-, h⟩ | ⟨-, h⟩ := s.started_cases <;> simp [h]

@[simp] theorem State.started_fb : s.started.fb = s.fb := by
  obtain ⟨-, h⟩ | ⟨-, h⟩ := s.started_cases <;> simp [h]

@[simp] theorem State.started_frames : s.started.frames = s.frames := by
  obtain ⟨-, h⟩ | ⟨-, h⟩ := s.started_cases <;> simp [h]

@[simp] theorem State.started_epoch : s.started.epoch = s.epoch := by
  obtain ⟨-, h⟩ | ⟨-, h⟩ := s.started_cases <;> simp [h]

@[simp] theorem State.started_env : s.started.env = s.env := by
  obtain ⟨-, h⟩ | ⟨-, h⟩ := s.started_cases <;> simp [h]

@[simp] theorem State.started_excl : s.started.excl = true := by
  obtain ⟨-, h⟩ | ⟨-, h⟩ := s.started_cases <;> simp [h]

@[simp] theorem State.started_p : s.started.p = 0 := by
  obtain ⟨-, h⟩ | ⟨-, h⟩ := s.started_cases <;> simp [h]

@[simp] theorem State.started_k : s.started.k = 0 := by
  obtain ⟨-, h⟩ | ⟨-, h⟩ := s.started_cases <;> simp [h]

@[simp] theorem State.started_t : s.started.t = 0 := by
  obtain ⟨-, h⟩ | ⟨-, h⟩ := s.started_cases <;> simp [h]

theorem State.started_mode : s.started.mode = if s.params.tLead = 0 then .send else .lead := by
  obtain ⟨hlead, h⟩ | ⟨hlead, h⟩ := s.started_cases <;> simp [h, hlead]

theorem State.started_sr : s.started.sr = if s.params.tLead = 0 then s.fbByte 0 else 0 := by
  obtain ⟨hlead, h⟩ | ⟨hlead, h⟩ := s.started_cases <;> simp [h, hlead]

@[simp] theorem State.started_fbByte (a : Nat) : s.started.fbByte a = s.fbByte a :=
  State.fbByte_congr s.started_fb s.started_epoch a

theorem State.started_mode_ne_idle : s.started.mode ≠ .idle := by
  rw [s.started_mode]
  split <;> decide

end Started

/-! ### The level at a position (R104) -/

theorem State.level_eq_true_iff (s : State) :
    s.level = true ↔ s.mode = .send ∧ s.t < s.params.highTicks (s.sr.getLsbD 7) := by
  rw [State.level, Bool.and_eq_true, decide_eq_true_eq, decide_eq_true_eq]

/-- The line is driven by the position the sequencer has moved to. -/
theorem State.driveLine_dout_iff (s : State) :
    s.driveLine.dout = true ↔
      s.driveLine.mode = .send ∧ s.driveLine.t < s.driveLine.params.highTicks (s.driveLine.sr.getLsbD 7) :=
  s.level_eq_true_iff

/-- A byte begins HIGH, whatever it is (R96). -/
theorem State.atByte_dout {s : State} (hv : s.params.valid = true) (p : Nat) : (s.atByte p).dout = true :=
  (State.driveLine_dout_iff _).2 ⟨rfl, Params.highTicks_pos hv _⟩

theorem State.started_dout {s : State} (hv : s.params.valid = true) :
    s.started.dout = decide (s.params.tLead = 0) := by
  obtain ⟨hlead, h⟩ | ⟨hlead, h⟩ := s.started_cases
  · rw [h, State.atByte_dout (s := s.acquire) hv, decide_eq_true hlead]
  · rw [h, State.driveLine_dout, State.level_of_not_send (by simp), decide_eq_false hlead]

/-! ### What a command leaves unchanged (R85, R38) -/

section Executed

variable (s : State) (i : Instr)

/-- A command is INIT, SETPIXEL or CLEAR, which replace the buffer and nothing else, or it starts a frame. -/
theorem State.executed_cases :
    ((∃ m, s.executed i = s.setFb m) ∧ i ≠ .transmit ∧ i ≠ .clearshow) ∨
    (s.executed i = s.started ∧ i = .transmit) ∨ (s.executed i = s.zeroFilled.started ∧ i = .clearshow) := by
  cases i with
  | init => exact .inl ⟨⟨_, rfl⟩, by simp, by simp⟩
  | setpixel idx r g b =>
    refine .inl ⟨?_, by simp, by simp⟩
    rw [State.executed_setpixel]
    split
    · exact ⟨_, rfl⟩
    · exact ⟨s.fb, rfl⟩
  | clear => exact .inl ⟨⟨_, rfl⟩, by simp, by simp⟩
  | transmit => exact .inr (.inl ⟨rfl, rfl⟩)
  | clearshow => exact .inr (.inr ⟨rfl, rfl⟩)

@[simp] theorem State.zeroFilled_params : s.zeroFilled.params = s.params := rfl
@[simp] theorem State.zeroFilled_frames : s.zeroFilled.frames = s.frames := rfl
@[simp] theorem State.zeroFilled_epoch : s.zeroFilled.epoch = s.epoch := rfl
@[simp] theorem State.zeroFilled_env : s.zeroFilled.env = s.env := rfl
@[simp] theorem State.zeroFilled_mode : s.zeroFilled.mode = s.mode := rfl

theorem State.executed_params : (s.executed i).params = s.params := by
  obtain ⟨⟨m, h⟩, -⟩ | ⟨h, -⟩ | ⟨h, -⟩ := s.executed_cases i <;> simp [h]

theorem State.executed_frames : (s.executed i).frames = s.frames := by
  obtain ⟨⟨m, h⟩, -⟩ | ⟨h, -⟩ | ⟨h, -⟩ := s.executed_cases i <;> simp [h]

theorem State.executed_env : (s.executed i).env = s.env := by
  obtain ⟨⟨m, h⟩, -⟩ | ⟨h, -⟩ | ⟨h, -⟩ := s.executed_cases i <;> simp [h]

/-- Only a command that starts a frame takes the exclusion (R101); no command releases it. -/
theorem State.executed_excl :
    ((s.executed i).excl = s.excl ∧ i ≠ .transmit ∧ i ≠ .clearshow) ∨
    ((s.executed i).excl = true ∧ (i = .transmit ∨ i = .clearshow)) := by
  obtain ⟨⟨m, h⟩, hne⟩ | ⟨h, hi⟩ | ⟨h, hi⟩ := s.executed_cases i
  · exact .inl ⟨by rw [h, State.setFb_excl], hne⟩
  · exact .inr ⟨by rw [h, State.started_excl], .inl hi⟩
  · exact .inr ⟨by rw [h, State.started_excl], .inr hi⟩

end Executed

/-! ### What the word of a command says of it (R12, R51) -/

/-- A command whose word does not write the buffer leaves it as it was (R12). -/
theorem executed_fb_of_not_writes {w : CmdWord} {i : Instr} (hi : decode w = .ok i) (hw : ¬ writesBuffer w = true)
    (s : State) : (s.executed i).fb = s.fb := by
  cases i with
  | transmit => exact s.started_fb
  | init | setpixel | clear | clearshow => exact absurd (by simp [writesBuffer, hi]) hw

theorem startsFrame_of_decode {w : CmdWord} {i : Instr} (hi : decode w = .ok i) (h : i = .transmit ∨ i = .clearshow) :
    startsFrame w = true := by
  obtain rfl | rfl := h <;> simp [startsFrame, hi]

/-! ### The sequencer's tick at each position (R104) -/

section Positions

variable {s : State}

theorem advance_of_lead (hm : s.mode = .lead) : advance s = tickLead s := by simp only [advance, hm]

theorem advance_of_send (hm : s.mode = .send) : advance s = tickSend s := by simp only [advance, hm]

theorem advance_of_latch (hm : s.mode = .latch) : advance s = tickLatch s := by simp only [advance, hm]

theorem tickLead_of_lt (h : s.t + 1 < s.params.tLead) :
    tickLead s = .next (s.setSeq .lead s.p s.k (s.t + 1)).driveLine := if_pos h

theorem tickLead_of_last (h : s.params.tLead ≤ s.t + 1) (hp : s.p < s.params.fbBytes) :
    tickLead s = .next (s.atByte s.p) :=
  (if_neg (Nat.not_lt.2 h)).trans (beginByte_of_lt hp)

theorem tickSend_of_lt (h : s.t + 1 < s.params.tBit) :
    tickSend s = .next (s.setSeq .send s.p s.k (s.t + 1)).driveLine := if_pos h

theorem tickSend_of_bit (h : s.params.tBit ≤ s.t + 1) (hk : s.k.val < 7) :
    tickSend s = .next ((s.setSeq .send s.p (s.k + 1) 0).setSr (s.sr <<< 1)).driveLine :=
  (if_neg (Nat.not_lt.2 h)).trans (if_pos hk)

theorem tickSend_of_byte (h : s.params.tBit ≤ s.t + 1) (hk : s.k.val = 7) (hp : s.p + 1 < s.params.fbBytes) :
    tickSend s = .next (s.atByte (s.p + 1)) := by
  rw [tickSend, if_neg (Nat.not_lt.2 h), if_neg hk.not_lt, if_pos hp, beginByte_of_lt hp]

theorem tickSend_of_frame (h : s.params.tBit ≤ s.t + 1) (hk : s.k.val = 7) (hp : s.params.fbBytes ≤ s.p + 1) :
    tickSend s = .next ((s.setSeq .latch 0 0 0).setSr 0).driveLine := by
  rw [tickSend, if_neg (Nat.not_lt.2 h), if_neg hk.not_lt, if_neg (Nat.not_lt.2 hp)]

theorem tickLatch_of_lt (h : s.t + 1 < s.params.tLatch) :
    tickLatch s = .next (s.setSeq .latch s.p s.k (s.t + 1)).driveLine := if_pos h

theorem tickLatch_of_last (h : s.params.tLatch ≤ s.t + 1) : tickLatch s = .next s.finished := if_neg (Nat.not_lt.2 h)

/-- The sequencer has a next state wherever `P` is within the buffer (R35). -/
theorem advance_answers (hp : s.p < s.params.fbBytes) : ∃ t, advance s = .next t := by
  cases hm : s.mode with
  | idle => exact ⟨s, advance_of_idle hm⟩
  | lead =>
    rw [advance_of_lead hm]
    obtain h | h := Nat.lt_or_ge (s.t + 1) s.params.tLead
    · exact ⟨_, tickLead_of_lt h⟩
    · exact ⟨_, tickLead_of_last h hp⟩
  | send =>
    rw [advance_of_send hm]
    obtain h | h := Nat.lt_or_ge (s.t + 1) s.params.tBit
    · exact ⟨_, tickSend_of_lt h⟩
    obtain hk | hk := Nat.lt_or_eq_of_le (Nat.le_of_lt_succ s.k.isLt)
    · exact ⟨_, tickSend_of_bit h hk⟩
    obtain hp | hp := Nat.lt_or_ge (s.p + 1) s.params.fbBytes
    · exact ⟨_, tickSend_of_byte h hk hp⟩
    · exact ⟨_, tickSend_of_frame h hk hp⟩
  | latch =>
    rw [advance_of_latch hm]
    obtain h | h := Nat.lt_or_ge (s.t + 1) s.params.tLatch
    · exact ⟨_, tickLatch_of_lt h⟩
    · exact ⟨_, tickLatch_of_last h⟩

end Positions

/-! ### What the sequencer's tick leaves unchanged -/

section Advance

variable {s t : State}

/-- The sequencer writes neither the parameters nor the buffer, and takes no move. -/
theorem advance_frame (h : advance s = .next t) :
    t.params = s.params ∧ t.fb = s.fb ∧ t.epoch = s.epoch ∧ t.env = s.env := by
  obtain ⟨-, rfl⟩ | ⟨-, -, rfl⟩ | ⟨-, -, -, rfl⟩ | ⟨-, -, rfl⟩ | ⟨-, -, -, rfl⟩ | ⟨-, -, -, -, rfl⟩ |
    ⟨-, -, -, -, rfl⟩ | ⟨-, -, rfl⟩ | ⟨-, -, rfl⟩ := advance_next h <;> simp

theorem advance_fb (h : advance s = .next t) : t.fb = s.fb := by
  obtain ⟨-, hfb, -, -⟩ := advance_frame h
  exact hfb

theorem advance_env (h : advance s = .next t) : t.env = s.env := by
  obtain ⟨-, -, -, henv⟩ := advance_frame h
  exact henv

/-- The sequencer keeps `EXCL` and `FRAMES` but for the last tick of the latch delay (R102, R19). -/
theorem advance_excl_frames (h : advance s = .next t) :
    (t.excl = s.excl ∧ t.frames = s.frames) ∨
    (s.mode = .latch ∧ s.params.tLatch ≤ s.t + 1 ∧ t = s.finished) := by
  obtain ⟨-, rfl⟩ | ⟨-, -, rfl⟩ | ⟨-, -, -, rfl⟩ | ⟨-, -, rfl⟩ | ⟨-, -, -, rfl⟩ | ⟨-, -, -, -, rfl⟩ |
    ⟨-, -, -, -, rfl⟩ | ⟨-, -, rfl⟩ | ⟨hm, hlast, rfl⟩ := advance_next h
  on_goal 9 => exact .inr ⟨hm, hlast, rfl⟩
  all_goals exact .inl (by simp)

/-- The sequencer takes no notice of the moves to come. -/
theorem advance_setEnv (h : advance s = .next t) (env : List Move) :
    advance (s.setEnv env) = .next (t.setEnv env) := by
  obtain ⟨hm, rfl⟩ | ⟨hm, ht, rfl⟩ | ⟨hm, ht, hp, rfl⟩ | ⟨hm, ht, rfl⟩ | ⟨hm, ht, hk, rfl⟩ | ⟨hm, ht, hk, hp, rfl⟩ |
    ⟨hm, ht, hk, hp, rfl⟩ | ⟨hm, ht, rfl⟩ | ⟨hm, ht, rfl⟩ := advance_next h
  · exact advance_of_idle (s := t.setEnv env) hm
  · exact (advance_of_lead (s := s.setEnv env) hm).trans (tickLead_of_lt ht)
  · exact (advance_of_lead (s := s.setEnv env) hm).trans (tickLead_of_last ht hp)
  · exact (advance_of_send (s := s.setEnv env) hm).trans (tickSend_of_lt ht)
  · exact (advance_of_send (s := s.setEnv env) hm).trans (tickSend_of_bit ht hk)
  · exact (advance_of_send (s := s.setEnv env) hm).trans (tickSend_of_byte ht hk hp)
  · exact (advance_of_send (s := s.setEnv env) hm).trans (tickSend_of_frame ht hk hp)
  · exact (advance_of_latch (s := s.setEnv env) hm).trans (tickLatch_of_lt ht)
  · exact (advance_of_latch (s := s.setEnv env) hm).trans (tickLatch_of_last ht)

end Advance

theorem step_params {s t : State} (h : step s = .next t) : t.params = s.params := by
  obtain ⟨-, hcase⟩ := step_next h
  cases hcase with
  | reset env hrst ht => rw [ht, State.afterReset_params, State.setEnv_params]
  | quiet env hrst hadvance => exact (advance_frame hadvance).1
  | accepted env w i hrst hm hw hi ht => rw [ht, State.executed_params, State.setEnv_params]

/-- No word takes a move: the host's moves are taken before it is run. -/
theorem runWord_env {s t : State} {w : CmdWord} (h : runWord w s = .next t) : t.env = s.env := by
  obtain ⟨-, ⟨i, -, -, rfl⟩ | hadvance⟩ := runWord_next h
  · exact s.executed_env i
  · exact advance_env hadvance

/-! ### The port while a transmission runs (R22, R24) -/

/-- A busy tick with a port move is the sequencer's own tick, with the moves that remain. -/
theorem step_of_portMove {s : State} (h : Busy s) (hport : ∀ m ∈ s.env.head?, isPortMove m = true) :
    ∃ env, env <:+ s.env ∧ step s = advance (s.setEnv env) := by
  obtain ⟨hv, hm⟩ := h
  cases henv : s.env with
  | nil =>
    rw [← henv]
    exact ⟨s.env, List.suffix_rfl, step_of_nil_of_valid hv henv⟩
  | cons m rest =>
    have hmove : isPortMove m = true := hport m (by simp [henv])
    cases m with
    | wait => exact ⟨rest, List.suffix_cons .., (step_wait henv).trans (quietTick_of_valid (s := s.setEnv rest) hv)⟩
    | offer w =>
      refine ⟨rest, List.suffix_cons .., ?_⟩
      rw [step_offer henv, runWord_busy (s := s.setEnv rest) hm, quietTick_of_valid (s := s.setEnv rest) hv]
    | present w =>
      rw [← henv]
      exact ⟨s.env, List.suffix_rfl, step_of_portHeld hv hm (.inr ⟨w, rest, henv⟩)⟩
    | assertRst | takeInterrupt | stallClock | writeFb => cases hmove

/-! ### When a step answers (R25, R132) -/

section Answers

variable {s : State}

theorem quietTick_answers (hv : s.params.valid = true) (hp : s.p < s.params.fbBytes) : ∃ t, quietTick s = .next t := by
  rw [quietTick_of_valid hv]
  exact advance_answers hp

theorem runWord_answers (hv : s.params.valid = true) (hp : s.p < s.params.fbBytes) (w : CmdWord) :
    ∃ t, runWord w s = .next t := by
  by_cases hm : s.mode = .idle
  case pos =>
    unfold runWord
    split
    · exact ⟨_, exec_of_ready ⟨hv, hm⟩ _⟩
    · exact quietTick_answers hv hp
  case neg =>
    rw [runWord_busy hm]
    exact quietTick_answers hv hp

/-- With a valid record and `P` within the buffer every move but a broken obligation has a next state. -/
theorem step_answers (hv : s.params.valid = true) (hp : s.p < s.params.fbBytes)
    (hlawful : ∀ m ∈ s.env.head?, breaksObligation s m = false) : ∃ t, step s = .next t := by
  cases henv : s.env with
  | nil => exact step_of_nil henv ▸ quietTick_answers hv hp
  | cons m rest =>
    have hm : breaksObligation s m = false := hlawful m (by simp [henv])
    cases m with
    | wait => exact step_wait henv ▸ quietTick_answers (s := s.setEnv rest) hv hp
    | offer w => exact step_offer henv ▸ runWord_answers (s := s.setEnv rest) hv hp w
    | present w =>
      obtain ⟨env, hpresent⟩ := s.afterPresent_eq_setEnv rest
      rw [step_present henv, hpresent]
      exact runWord_answers (s := s.setEnv env) hv hp w
    | assertRst cmd => exact ⟨_, (step_assertRst henv).trans (withValidParams_of_valid (s := s.setEnv rest) hv _)⟩
    | takeInterrupt =>
      have hexcl : ¬ (s.setEnv rest).excl = true := Bool.eq_false_iff.1 hm
      rw [step_takeInterrupt henv, interruptTick, if_neg hexcl]
      exact quietTick_answers (s := s.setEnv rest) hv hp
    | stallClock =>
      have hready : (s.setEnv rest).cmdReady = true := by simpa [breaksObligation] using hm
      rw [step_stallClock henv, stalledTick, if_pos hready]
      exact ⟨_, withValidParams_of_valid (s := s.setEnv rest) hv _⟩
    | writeFb a v => cases hm

end Answers

/-! ### When a step is refused (R6, R132) -/

theorem exec_invalid {s : State} (hv : ¬ s.params.valid = true) (i : Instr) :
    exec i s = .refused .invalidParameters := by
  obtain ⟨effect, h⟩ := exec_eq_onCommand i s
  rw [h, onCommand_invalid hv]

theorem withValidParams_invalid {s : State} (hv : ¬ s.params.valid = true) (body : Result) :
    withValidParams s body = .refused .invalidParameters := if_neg hv

theorem runWord_invalid {s : State} (hv : ¬ s.params.valid = true) (w : CmdWord) :
    runWord w s = .refused .invalidParameters := by
  unfold runWord
  split
  · exact exec_invalid hv _
  · exact withValidParams_invalid hv _

/-- With an invalid record every tick is refused, whatever the move (R6). -/
theorem step_invalid {s : State} (hv : ¬ s.params.valid = true) : ∃ r, step s = .refused r := by
  cases henv : s.env with
  | nil => exact ⟨_, (step_of_nil henv).trans (withValidParams_invalid hv _)⟩
  | cons m rest =>
    cases m with
    | wait => exact ⟨_, (step_wait henv).trans (withValidParams_invalid (s := s.setEnv rest) hv _)⟩
    | offer w => exact ⟨_, (step_offer henv).trans (runWord_invalid (s := s.setEnv rest) hv w)⟩
    | present w =>
      obtain ⟨env, hpresent⟩ := s.afterPresent_eq_setEnv rest
      rw [step_present henv, hpresent]
      exact ⟨_, runWord_invalid (s := s.setEnv env) hv w⟩
    | assertRst cmd => exact ⟨_, (step_assertRst henv).trans (withValidParams_invalid (s := s.setEnv rest) hv _)⟩
    | takeInterrupt =>
      rw [step_takeInterrupt henv, interruptTick]
      split
      · exact ⟨_, rfl⟩
      · exact ⟨_, withValidParams_invalid (s := s.setEnv rest) hv _⟩
    | stallClock =>
      rw [step_stallClock henv, stalledTick]
      split
      · exact ⟨_, withValidParams_invalid (s := s.setEnv rest) hv _⟩
      · exact ⟨_, rfl⟩
    | writeFb a v => exact ⟨_, step_writeFb henv⟩

theorem step_stallClock_of_busy {s : State} {rest : List Move} (h : s.env = .stallClock :: rest)
    (hm : s.mode ≠ .idle) : step s = .refused .clockStalled := by
  rw [step_stallClock h, stalledTick, State.setEnv_cmdReady, State.cmdReady_of_busy hm, if_neg Bool.false_ne_true]

theorem step_takeInterrupt_of_excl {s : State} {rest : List Move} (h : s.env = .takeInterrupt :: rest)
    (hexcl : s.excl = true) : step s = .refused .exclusionIgnored := by
  rw [step_takeInterrupt h, interruptTick, State.setEnv_excl, if_pos hexcl]

/-- A move that breaks an obligation is refused (R132). -/
theorem step_of_broken {s : State} {m : Move} {rest : List Move} (h : s.env = m :: rest)
    (hbreaks : breaksObligation s m = true) : ∃ r, step s = .refused r := by
  cases m with
  | takeInterrupt => exact ⟨_, step_takeInterrupt_of_excl h hbreaks⟩
  | stallClock =>
    have hm : s.mode ≠ .idle := by simpa [breaksObligation, State.cmdReady] using hbreaks
    exact ⟨_, step_stallClock_of_busy h hm⟩
  | writeFb a v => exact ⟨_, step_writeFb h⟩
  | wait | offer | present | assertRst => cases hbreaks

/-- A step has a next state or is refused. -/
theorem step_answers_or_refused {s : State} (hp : s.p < s.params.fbBytes) :
    (∃ t, step s = .next t) ∨ ∃ r, step s = .refused r := by
  by_cases hv : s.params.valid = true
  case neg => exact .inr (step_invalid hv)
  case pos =>
    by_cases hlawful : ∀ m ∈ s.env.head?, breaksObligation s m = false
    case pos => exact .inl (step_answers hv hp hlawful)
    case neg =>
      push Not at hlawful
      obtain ⟨m, hm, hbreaks⟩ := hlawful
      obtain ⟨rest, henv⟩ := List.head?_eq_some_iff.1 hm
      exact .inr (step_of_broken henv (Bool.eq_true_of_not_eq_false hbreaks))

end Sys2Proof.Machine
end

section
/-! The statements about one tick: the words accepted and refused, what the sequencer does in it, what may change in
it, and when it answers (R20 to R25, R101 to R104, R127 to R141). -/

namespace Sys2Proof

open Sys2Proof.Machine

/-! ### Words in IDLE -/

/-- Settles O5: a reserved word makes the tick a quiet one, and in IDLE that changes nothing. -/
theorem reservedWordChangesNothing : Obligations.ReservedWordChangesNothing := by
  rintro s w rest ⟨hv, hm⟩ hop henv
  have hstep : step s = runWord w (s.setEnv rest) := by
    obtain henv | henv := henv
    · exact step_offer henv
    · exact step_present_of_idle hm henv
  rw [hstep, runWord_of_reserved hop, quietTick_of_valid (s := s.setEnv rest) hv,
    advance_of_idle (s := s.setEnv rest) hm]

/-- Settles O39, from the tick of each move and the command the word decodes to. -/
theorem stepRunsDecodedInstruction : Obligations.StepRunsDecodedInstruction := by
  intro s w i rest hi
  refine ⟨fun henv => ?offered, fun henv hm => ?accepted, fun henv hm => ?held⟩
  case offered => rw [step_offer henv, runWord_of_decode hi]
  case accepted => rw [step_present_of_idle hm henv, runWord_of_decode hi]
  case held => rw [step_present_of_busy hm henv, runWord_of_decode hi]

/-- Settles O40: the word is presented to a parked block, which accepts it and is left with the moves it had. -/
theorem placedWordRunsNext : Obligations.PlacedWordRunsNext := by
  intro s w i hi
  refine ⟨?_, s.parked_mode, State.parked_of_idle⟩
  have hself : s.parked.setEnv s.env = s.parked := by rw [← s.parked_env]; rfl
  have hidle : (s.withFetchWord 40 w).mode = .idle := s.parked_mode
  rw [step_present_of_idle hidle rfl, runWord_of_decode (decode_of_decodeTableWord hi)]
  exact congrArg (exec i) hself

/-- Settles O41: a quiet tick in IDLE leaves the state as it is. -/
theorem idleBlockStaysPut : Obligations.IdleBlockStaysPut := by
  refine ⟨?wait, ?runOver⟩
  case wait =>
    rintro s rest ⟨hv, hm⟩ henv
    rw [step_wait henv, quietTick_of_valid (s := s.setEnv rest) hv, advance_of_idle (s := s.setEnv rest) hm]
  case runOver =>
    intro s hv hover
    rw [State.over, Bool.and_eq_true, decide_eq_true_eq] at hover
    obtain ⟨henv, hready⟩ := hover
    rw [step_of_nil henv, quietTick_of_valid hv, advance_of_idle (s.cmdReady_iff.1 hready)]

/-! ### Reset -/

/-- Settles O42: the outputs are those of reset at once, and the next state is the one `RST` leaves. -/
theorem rstOverridesAndClears : Obligations.RstOverridesAndClears := by
  intro s cmd rest hv henv
  have hrst : s.rstAsserted = true := by simp only [State.rstAsserted, henv]
  have hstep : step s = .next (s.setEnv rest).afterReset :=
    (step_assertRst henv).trans (withValidParams_of_valid (s := s.setEnv rest) hv _)
  refine ⟨?outputs, _, hstep, rfl, rfl, rfl, rfl, rfl, rfl, rfl, rfl, fun _ => rfl, rfl, rfl, rfl⟩
  case outputs => simp [State.outputs, State.line, hrst]

/-- Settles O43: the fields of the reset state, and a buffer in which nothing has been written. -/
theorem resetLeavesSpecValues : Obligations.ResetLeavesSpecValues :=
  fun _ => ⟨rfl, rfl, rfl, rfl, rfl, rfl, rfl, rfl, fun _ => rfl, rfl⟩

/-! ### The sequencer (R90, R91, R104) -/

/-- Settles O13, from the state after TRANSMIT is accepted. -/
theorem transmitStartsSequencer : Obligations.TransmitStartsSequencer := fun s h =>
  ⟨s.started, exec_of_ready h .transmit, s.started_excl, s.started_p, s.started_k, s.started_t, s.started_mode,
    s.started_sr, State.started_dout h.1, s.started_fb, s.started_fbByte, s.started_params, s.started_frames,
    s.started_epoch, s.started_env⟩

/-- Settles O14: CLEARSHOW starts a frame from the zero-filled state, which is CLEAR's. -/
theorem clearshowIsClearThenTransmit : Obligations.ClearshowIsClearThenTransmit := by
  intro s h
  have htransmit : exec .transmit s.zeroFilled = .next s.zeroFilled.started :=
    exec_of_ready (s := s.zeroFilled) h .transmit
  refine ⟨s.zeroFilled, s.zeroFilled.started, exec_clear_of_ready h, htransmit, exec_of_ready h .clearshow,
    fun a ha => ?zero, s.zeroFilled.started_excl, s.zeroFilled.started_mode_ne_idle, ?frame⟩
  case zero => rw [State.started_fbByte, s.zeroFilled_fbByte ha]
  case frame => simp

/-- Settles O15: the lead-in counts, or byte `P` begins. -/
theorem leadTickCounts : Obligations.LeadTickCounts := by
  intro s hv hm henv hp
  have hstep : step s = tickLead s := (step_of_nil_of_valid hv henv).trans (advance_of_lead hm)
  obtain h | h := Nat.lt_or_ge (s.t + 1) s.params.tLead
  · refine ⟨_, hstep.trans (tickLead_of_lt h), fun _ => ?counts, fun hn => absurd h (by omega), by simp⟩
    case counts => exact ⟨rfl, rfl, rfl, rfl, rfl, rfl⟩
  · refine ⟨_, hstep.trans (tickLead_of_last h hp), fun hn => absurd h (by omega), fun _ => ?begins, by simp⟩
    case begins => exact ⟨rfl, rfl, rfl, rfl, rfl, State.atByte_dout hv s.p⟩

/-- Settles O16: the sequencer's four ways on from SEND, each with the line driven by its new position. In each of them
the clauses of the other three ask for another tick, bit or byte. -/
theorem sendTickWalksFrame : Obligations.SendTickWalksFrame := by
  intro s hv hm henv
  have hstep : step s = tickSend s := (step_of_nil_of_valid hv henv).trans (advance_of_send hm)
  obtain h | h := Nat.lt_or_ge (s.t + 1) s.params.tBit
  · -- a bit period counts
    refine ⟨_, hstep.trans (tickSend_of_lt h), fun _ => by simp, ?_, ?_, ?_, State.driveLine_dout_iff _, by simp⟩ <;>
      omega
  obtain hk | hk := Nat.lt_or_eq_of_le (Nat.le_of_lt_succ s.k.isLt)
  · -- the next bit begins
    have hsucc : (s.k + 1).val = s.k.val + 1 := Fin.val_add_one_of_lt' (by omega)
    refine ⟨_, hstep.trans (tickSend_of_bit h hk), ?_, fun _ _ => by simp [hsucc], ?_, ?_, State.driveLine_dout_iff _,
      by simp⟩ <;> omega
  obtain hp | hp := Nat.lt_or_ge (s.p + 1) s.params.fbBytes
  · -- the next byte begins
    refine ⟨_, hstep.trans (tickSend_of_byte h hk hp), ?_, ?_, fun _ _ _ => by simp, ?_, State.driveLine_dout_iff _,
      by simp⟩ <;> omega
  · -- the latch delay begins
    refine ⟨_, hstep.trans (tickSend_of_frame h hk hp), ?_, ?_, ?_, fun _ _ _ => by simp, State.driveLine_dout_iff _,
      by simp⟩ <;> omega

/-- Settles O17: the latch delay counts, or the transmission is over. -/
theorem latchTickEndsTransmission : Obligations.LatchTickEndsTransmission := by
  intro s hv hm henv
  have hstep : step s = tickLatch s := (step_of_nil_of_valid hv henv).trans (advance_of_latch hm)
  obtain h | h := Nat.lt_or_ge (s.t + 1) s.params.tLatch
  · refine ⟨_, hstep.trans (tickLatch_of_lt h), rfl, fun _ => ?counts, fun hn => absurd h (by omega), by simp⟩
    case counts => simp
  · refine ⟨_, hstep.trans (tickLatch_of_last h), rfl, fun hn => absurd h (by omega), fun _ => ?ends,
      rfl, rfl, rfl, rfl⟩
    case ends => exact ⟨rfl, rfl, rfl, rfl, rfl, rfl, rfl⟩

/-- Settles O18: a run of the ticks of a transmission sends the trace and ends in the finished state. -/
theorem ticksSendTheTrace : Obligations.TicksSendTheTrace := by
  intro s h henv
  have hrun := emits_started h.1 (.inl henv)
  rw [← State.transmitTrace_length h.1]
  exact ⟨s.started, exec_of_ready h .transmit, hrun.levels_eq, hrun.runTicks_eq⟩

/-! ### What a step may change -/

/-- Settles O38: none of a reset, the sequencer and a command writes the parameters. -/
theorem parametersNeverChange : Obligations.ParametersNeverChange := fun _ _ => step_params

/-- Settles O12: the sequencer writes no buffer, and TRANSMIT, the one command that is no writer, none either. -/
theorem onlyListedWritersChangeBuffer : Obligations.OnlyListedWritersChangeBuffer := by
  intro s t h hchanged
  obtain ⟨-, hcase⟩ := step_next h
  cases hcase with
  | reset env hrst ht => exact .inr hrst
  | quiet env hrst hadvance => exact absurd (advance_fb hadvance) hchanged
  | accepted env w i hrst hm hw hi ht =>
    refine .inl ⟨hm, w, hw, by_contra fun hno => hchanged ?_⟩
    rw [ht, executed_fb_of_not_writes hi hno, State.setEnv_fb]

/-- Settles O21: a busy tick without `RST` is the sequencer's own. -/
theorem bufferStableWhileBusy : Obligations.BufferStableWhileBusy := by
  refine ⟨fun s t hm hnorst h => ?stable, fun s a v rest => step_writeFb⟩
  case stable =>
    obtain ⟨-, hcase⟩ := step_next h
    cases hcase with
    | reset env hrst ht => exact absurd hrst (by simp [hnorst])
    | quiet env hrst hadvance =>
      obtain ⟨-, hfb, hepoch, -⟩ := advance_frame hadvance
      exact ⟨hfb, State.fbByte_congr hfb hepoch⟩
    | accepted env w i hrst hidle hw hi ht => exact absurd hidle hm

/-- Settles O24: the sequencer only releases, at the end of the latch delay; a command only takes, to start a frame. -/
theorem exclusionTakenAndReleased : Obligations.ExclusionTakenAndReleased := by
  intro s t h
  obtain ⟨-, hcase⟩ := step_next h
  cases hcase with
  | reset env hrst ht => exact ⟨fun _ htaken => by simp [ht] at htaken, fun _ _ => .inr hrst⟩
  | quiet env hrst hadvance =>
    obtain ⟨hexcl, -⟩ | ⟨hm, hlast, rfl⟩ := advance_excl_frames hadvance
    · rw [hexcl, State.setEnv_excl]
      exact ⟨fun hfree htaken => by simp [hfree] at htaken, fun htaken hfree => by simp [htaken] at hfree⟩
    · exact ⟨fun _ htaken => by simp at htaken, fun _ _ => .inl ⟨hm, hlast, rfl⟩⟩
  | accepted env w i hrst hm hw hi ht =>
    obtain ⟨hexcl, -⟩ | ⟨hexcl, hstarts⟩ := (s.setEnv env).executed_excl i
    · rw [ht, hexcl, State.setEnv_excl]
      exact ⟨fun hfree htaken => by simp [hfree] at htaken, fun htaken hfree => by simp [htaken] at hfree⟩
    · rw [ht, hexcl]
      exact ⟨fun _ _ => ⟨hm, w, hw, startsFrame_of_decode hi hstarts⟩, fun _ hfree => by simp at hfree⟩

/-- Settles O26: a reset and a command keep `FRAMES`, and the sequencer adds to it only at the end of the latch
delay. -/
theorem framesGrowOnlyAtLatchEnd : Obligations.FramesGrowOnlyAtLatchEnd := by
  intro s t h
  obtain ⟨-, hcase⟩ := step_next h
  cases hcase with
  | reset env hrst ht => exact .inl (by rw [ht, State.afterReset_frames, State.setEnv_frames])
  | quiet env hrst hadvance =>
    obtain ⟨-, hframes⟩ | ⟨hm, hlast, rfl⟩ := advance_excl_frames hadvance
    · exact .inl hframes
    · exact .inr ⟨hm, hlast, hrst, rfl⟩
  | accepted env w i hrst hm hw hi ht => exact .inl (by rw [ht, State.executed_frames, State.setEnv_frames])

/-! ### The port while a transmission runs -/

/-- Settles O22: under either schedule the tick is the sequencer's own, which takes no notice of the moves. -/
theorem busyBlockIgnoresPort : Obligations.BusyBlockIgnoresPort := by
  intro s t e e' h hport hport' hstep
  obtain ⟨env, -, hquiet⟩ := step_of_portMove (s := s.setEnv e) h hport
  obtain ⟨env', -, hquiet'⟩ := step_of_portMove (s := s.setEnv e') h hport'
  exact ⟨t.setEnv env', hquiet'.trans (advance_setEnv (hquiet.symm.trans hstep) env'), rfl⟩

/-- Settles O23, from the busy tick of each of the two moves; the sequencer's own tick takes no move. -/
theorem heldCommandIsNeitherRunNorLost : Obligations.HeldCommandIsNeitherRunNorLost := by
  refine ⟨fun s t w rest ⟨hv, hm⟩ henv h => ?presented, fun s t w rest ⟨hv, hm⟩ henv h => ?offered,
    fun i s ⟨_, hm⟩ => exec_busy hm i⟩
  case presented =>
    exact advance_env ((step_of_portHeld hv hm (.inr ⟨w, rest, henv⟩)).symm.trans h)
  case offered =>
    rw [step_offer henv, runWord_busy (s := s.setEnv rest) hm, quietTick_of_valid (s := s.setEnv rest) hv] at h
    exact advance_env h

/-! ### Answers and refusals -/

/-- Settles O37, from the handshake of each command and the tick of each move. -/
theorem invalidRecordIsRefused : Obligations.InvalidRecordIsRefused := fun _ hv =>
  have hinvalid := Bool.eq_false_iff.1 hv
  ⟨exec_invalid hinvalid, step_invalid hinvalid⟩

/-- Settles O48, by the next move: the sequencer and every command have a next state. -/
theorem lawfulStepAnswers : Obligations.LawfulStepAnswers := fun _ => step_answers

/-- Settles O49, from the tick of each of the three moves. -/
theorem brokenObligationIsRefused : Obligations.BrokenObligationIsRefused := fun _ _ =>
  ⟨step_stallClock_of_busy, step_takeInterrupt_of_excl, fun _ _ => step_writeFb⟩

/-- Settles O47: a step that has a next state, or is refused, does not fault. -/
theorem stepNeverFaults : Obligations.StepNeverFaults := by
  intro s f hp hfault
  obtain ⟨t, h⟩ | ⟨r, h⟩ := step_answers_or_refused hp
  · cases hfault.symm.trans h
  · cases hfault.symm.trans h

end Sys2Proof
end

section
/-! The invariant of R21: what each position of the sequencer needs for it, and that each way a step can go keeps it. -/

namespace Sys2Proof.Machine

/-! ### The part the sequencer does not touch -/

/-- What the invariant says of the record, the buffer and the recorded frames, whatever the sequencer's position. -/
structure StoreInv (s : State) : Prop where
  params_valid : s.params.valid = true
  fb_wf : s.fb.wf s.params.fbBytes
  frames_length : ∀ f ∈ s.frames, f.length = s.params.fbBytes

theorem storeInv_of_inv {s : State} (h : Inv s) : StoreInv s := ⟨h.params_valid, h.fb_wf, h.frames_length⟩

theorem StoreInv.congr {s t : State} (h : StoreInv s) (hparams : t.params = s.params) (hfb : t.fb = s.fb)
    (hframes : t.frames = s.frames) : StoreInv t :=
  ⟨hparams ▸ h.params_valid, hparams ▸ hfb ▸ h.fb_wf, hparams ▸ hframes ▸ h.frames_length⟩

theorem StoreInv.setFb {s : State} (h : StoreInv s) {m : Memory} (hm : m.wf s.params.fbBytes) : StoreInv (s.setFb m) :=
  ⟨h.params_valid, hm, h.frames_length⟩

theorem StoreInv.zeroFilled {s : State} (h : StoreInv s) : StoreInv s.zeroFilled := h.setFb (Memory.wf_fill _ _)

theorem StoreInv.fbBytes_pos {s : State} (h : StoreInv s) : 0 < s.params.fbBytes :=
  Nat.lt_of_lt_of_le (by decide) (Params.valid_fbBytes h.params_valid)

/-- The frame recorded is one byte for each location (R19). -/
theorem StoreInv.recordFrame {s : State} (h : StoreInv s) : StoreInv s.recordFrame := by
  refine ⟨h.params_valid, h.fb_wf, fun f hf => ?_⟩
  rw [State.recordFrame_frames, List.mem_append, List.mem_singleton] at hf
  obtain hf | rfl := hf
  · exact h.frames_length f hf
  · exact s.frameBytes_length

/-! ### The invariant at each position -/

section Positions

variable {s : State} (h : StoreInv s)
include h

theorem inv_idle (hm : s.mode = .idle) (hp : s.p = 0) (hk : s.k = 0) (ht : s.t = 0) (hsr : s.sr = 0)
    (hexcl : s.excl = false) (hdout : s.dout = false) : Inv s where
  params_valid := h.params_valid
  fb_wf := h.fb_wf
  idle_zero _ := ⟨hp, hk, ht, hsr⟩
  gap_zero hgap := by simp [hm] at hgap
  excl_iff := by simp [hexcl, hm]
  p_bound := hp ▸ h.fbBytes_pos
  lead_bound hlead := by simp [hm] at hlead
  send_bound hsend := by simp [hm] at hsend
  latch_bound hlatch := by simp [hm] at hlatch
  sr_shifted hsend := by simp [hm] at hsend
  dout_level := by rw [hdout, State.level_of_not_send (by simp [hm])]
  frames_length := h.frames_length

/-- In LEAD and LATCH only `T` counts. -/
theorem inv_driveLine_gap (hm : s.mode = .lead ∨ s.mode = .latch) (hexcl : s.excl = true) (hp : s.p = 0) (hk : s.k = 0)
    (hsr : s.sr = 0) (hlead : s.mode = .lead → s.t < s.params.tLead)
    (hlatch : s.mode = .latch → s.t < s.params.tLatch) : Inv s.driveLine where
  params_valid := h.params_valid
  fb_wf := h.fb_wf
  idle_zero hidle := by simp [show s.mode = .idle from hidle] at hm
  gap_zero _ := ⟨hp, hk, hsr⟩
  excl_iff := by obtain hm | hm := hm <;> simp [hexcl, hm]
  p_bound := hp ▸ h.fbBytes_pos
  lead_bound := hlead
  send_bound hsend := by simp [show s.mode = .send from hsend] at hm
  latch_bound := hlatch
  sr_shifted hsend := by simp [show s.mode = .send from hsend] at hm
  dout_level := rfl
  frames_length := h.frames_length

theorem inv_driveLine_send (hm : s.mode = .send) (hexcl : s.excl = true) (hp : s.p < s.params.fbBytes)
    (ht : s.t < s.params.tBit) (hsr : s.sr = s.fbByte s.p <<< s.k.val) : Inv s.driveLine where
  params_valid := h.params_valid
  fb_wf := h.fb_wf
  idle_zero hidle := by simp [hm] at hidle
  gap_zero hgap := by simp [hm] at hgap
  excl_iff := by simp [hexcl, hm]
  p_bound := hp
  lead_bound hlead := by simp [hm] at hlead
  send_bound _ := ht
  latch_bound hlatch := by simp [hm] at hlatch
  sr_shifted _ := hsr
  dout_level := rfl
  frames_length := h.frames_length

/-- The first tick of a byte within the buffer: nothing of it has been shifted out (R14). -/
theorem inv_atByte (hexcl : s.excl = true) {p : Nat} (hp : p < s.params.fbBytes) : Inv (s.atByte p) := by
  have ht : 0 < s.params.tBit := Nat.zero_lt_of_lt (Params.highTicks_lt h.params_valid true)
  exact inv_driveLine_send (s := (s.setSeq .send p 0 0).setSr (s.fbByte p)) (h.congr rfl rfl rfl) rfl hexcl hp ht
    (BitVec.shiftLeft_zero _).symm

theorem inv_started : Inv s.started := by
  have hstore : StoreInv s.acquire := h.congr rfl rfl rfl
  obtain ⟨-, hs⟩ | ⟨hlead, hs⟩ := s.started_cases
  · rw [hs]
    exact inv_atByte hstore rfl h.fbBytes_pos
  · rw [hs]
    exact inv_driveLine_gap (hstore.congr rfl rfl rfl) (.inl rfl) rfl rfl rfl rfl (fun _ => Nat.pos_of_ne_zero hlead)
      nofun

theorem inv_afterReset : Inv s.afterReset := by
  have hstore : StoreInv s.afterReset :=
    ⟨h.params_valid, ⟨.nil, fun c hc => absurd hc List.not_mem_nil⟩, h.frames_length⟩
  exact inv_idle hstore rfl rfl rfl rfl rfl rfl rfl

end Positions

/-! ### The invariant along a step -/

section Step

variable {s t : State} (h : Inv s)
include h

theorem inv_setEnv (env : List Move) : Inv (s.setEnv env) := by
  constructor
  case params_valid => exact h.params_valid
  case fb_wf => exact h.fb_wf
  case idle_zero => exact h.idle_zero
  case gap_zero => exact h.gap_zero
  case excl_iff => exact h.excl_iff
  case p_bound => exact h.p_bound
  case lead_bound => exact h.lead_bound
  case send_bound => exact h.send_bound
  case latch_bound => exact h.latch_bound
  case sr_shifted => exact h.sr_shifted
  case dout_level => exact h.dout_level
  case frames_length => exact h.frames_length

theorem excl_of_busy (hm : s.mode ≠ .idle) : s.excl = true := h.excl_iff.2 hm

theorem excl_of_idle (hm : s.mode = .idle) : s.excl = false := by simpa [hm] using h.excl_iff

theorem dout_of_idle (hm : s.mode = .idle) : s.dout = false :=
  h.dout_level.trans (State.level_of_not_send (by simp [hm]))

/-- In IDLE any canonical buffer does. -/
theorem inv_setFb (hm : s.mode = .idle) {m : Memory} (hfb : m.wf s.params.fbBytes) : Inv (s.setFb m) := by
  obtain ⟨hp, hk, ht, hsr⟩ := h.idle_zero hm
  have hexcl : s.excl = false := excl_of_idle h hm
  have hdout : s.dout = false := dout_of_idle h hm
  exact inv_idle ((storeInv_of_inv h).setFb hfb) hm hp hk ht hsr hexcl hdout

theorem inv_executed (hm : s.mode = .idle) (i : Instr) : Inv (s.executed i) := by
  have hzero : Inv s.zeroFilled := inv_setFb h hm (Memory.wf_fill _ _)
  cases i with
  | init => exact hzero
  | setpixel idx r g b =>
    rw [State.executed_setpixel]
    split
    case isTrue hin => exact inv_setFb h hm (Memory.wf_writeAll _ h.fb_wf (pixelCells_below hin))
    case isFalse => exact h
  | clear => exact hzero
  | transmit => exact inv_started (storeInv_of_inv h)
  | clearshow => exact inv_started (storeInv_of_inv h).zeroFilled

theorem inv_finished : Inv s.finished := by
  have hstore : StoreInv s.recordFrame := (storeInv_of_inv h).recordFrame
  exact inv_idle (hstore.congr rfl rfl rfl) rfl rfl rfl rfl rfl rfl rfl

theorem inv_advance (hadvance : advance s = .next t) : Inv t := by
  have hstore {u : State} (hparams : u.params = s.params) (hfb : u.fb = s.fb) (hframes : u.frames = s.frames) :
      StoreInv u := (storeInv_of_inv h).congr hparams hfb hframes
  have hexcl {m : Mode} (hm : s.mode = m) (hne : m ≠ .idle) : s.excl = true := excl_of_busy h (hm ▸ hne)
  obtain ⟨-, rfl⟩ | ⟨hm, ht, rfl⟩ | ⟨hm, -, hp, rfl⟩ | ⟨hm, ht, rfl⟩ | ⟨hm, -, hk, rfl⟩ | ⟨hm, -, -, hp, rfl⟩ |
    ⟨hm, -, -, -, rfl⟩ | ⟨hm, ht, rfl⟩ | ⟨-, -, rfl⟩ := advance_next hadvance
  · -- in IDLE nothing changes
    exact h
  · -- the lead-in counts
    obtain ⟨hp, hk, hsr⟩ := h.gap_zero (.inl hm)
    exact inv_driveLine_gap (hstore rfl rfl rfl) (.inl rfl) (hexcl hm (by decide)) hp hk hsr (fun _ => ht) nofun
  · -- the lead-in is over and byte `P` begins
    exact inv_atByte (storeInv_of_inv h) (hexcl hm (by decide)) hp
  · -- a bit period counts
    exact inv_driveLine_send (hstore rfl rfl rfl) rfl (hexcl hm (by decide)) h.p_bound ht (h.sr_shifted hm)
  · -- the next bit begins
    have hsucc : (s.k + 1).val = s.k.val + 1 := Fin.val_add_one_of_lt' (by omega)
    have hsr : s.sr <<< 1 = s.fbByte s.p <<< (s.k + 1).val := by
      rw [h.sr_shifted hm, hsucc, BitVec.shiftLeft_add]
    have ht : 0 < s.params.tBit := Nat.zero_lt_of_lt (h.send_bound hm)
    exact inv_driveLine_send (hstore rfl rfl rfl) rfl (hexcl hm (by decide)) h.p_bound ht hsr
  · -- the next byte begins
    exact inv_atByte (storeInv_of_inv h) (hexcl hm (by decide)) hp
  · -- the latch delay begins
    exact inv_driveLine_gap (hstore rfl rfl rfl) (.inr rfl) (hexcl hm (by decide)) rfl rfl rfl nofun
      (fun _ => Params.valid_latch h.params_valid)
  · -- the latch delay counts
    obtain ⟨hp, hk, hsr⟩ := h.gap_zero (.inr hm)
    exact inv_driveLine_gap (hstore rfl rfl rfl) (.inr rfl) (hexcl hm (by decide)) hp hk hsr nofun (fun _ => ht)
  · -- the transmission is over
    exact inv_finished h

theorem inv_step (hstep : step s = .next t) : Inv t := by
  obtain ⟨-, hcase⟩ := step_next hstep
  cases hcase with
  | reset env hrst ht => exact ht ▸ inv_afterReset (storeInv_of_inv (inv_setEnv h env))
  | quiet env hrst hadvance => exact inv_advance (inv_setEnv h env) hadvance
  | accepted env w i hrst hm hw hi ht => exact ht ▸ inv_executed (inv_setEnv h env) hm i

end Step

theorem inv_resetWith {c : Params} (hv : c.valid = true) : Inv (State.resetWith c) := by
  have hstore : StoreInv (State.resetWith c) :=
    ⟨hv, ⟨.nil, fun x hx => absurd hx List.not_mem_nil⟩, fun f hf => absurd hf List.not_mem_nil⟩
  exact inv_idle hstore rfl rfl rfl rfl rfl rfl rfl

/-- Bit 7 of a byte shifted by `k` is its bit `7 - k` (R14). -/
theorem getLsbD_seven_shiftLeft (x : Byte) (k : Fin 8) : (x <<< k.val).getLsbD 7 = x.getLsbD (7 - k.val) := by
  have hk : ¬ 7 < k.val := by omega
  rw [BitVec.getLsbD_shiftLeft, decide_eq_true (by decide), decide_eq_false hk, Bool.not_false, Bool.true_and,
    Bool.true_and]

end Sys2Proof.Machine
end

section
/-! The statements about the invariant: it holds at reset and along every step (R21), and what it says of `DOUT`
(R104) and of the host's enable (R16). -/

namespace Sys2Proof

open Sys2Proof.Machine

/-- Settles O45: a reset, the sequencer's tick and a command accepted in IDLE each keep the invariant. -/
theorem stepKeepsInvariant : Obligations.StepKeepsInvariant := fun _ _ => inv_step

/-- Settles O44, from the idle position with nothing stored. -/
theorem resetMeetsInvariant : Obligations.ResetMeetsInvariant := ⟨inv_resetWith (by decide), fun _ => inv_resetWith⟩

/-- Settles O46: `DOUT` is the level of the position, and `SR[7]` is bit `7 - K` of `FB[P]`. -/
theorem doutFollowsBufferBit : Obligations.DoutFollowsBufferBit := by
  intro s h
  rw [h.dout_level, State.level_eq_true_iff]
  refine and_congr_right fun hm => ?_
  rw [h.sr_shifted hm, getLsbD_seven_shiftLeft]

/-- Settles O25: `EXCL` is 1 exactly outside IDLE. -/
theorem exclusionMasksHostEnable : Obligations.ExclusionMasksHostEnable := by
  intro s own h hrst
  by_cases hm : s.mode = .idle
  case pos => simp [State.effectiveEnable, State.outputs, hrst, hm, excl_of_idle h hm]
  case neg => simp [State.effectiveEnable, State.outputs, hrst, hm, excl_of_busy h hm]

end Sys2Proof
end

section
/-! How long a run takes (R25, R106): each busy tick uses up one of the ticks left, a move made in IDLE at most one
transmission, so a run of port moves is over in time. -/

namespace Sys2Proof.Machine

/-! ### The ticks left (R106) -/

/-- The bits of the frame not yet completed, in SEND (R13). -/
def bitsLeft (s : State) : Nat := 8 * (s.params.fbBytes - s.p) - s.k.val

section TicksLeft

variable {s : State}

theorem ticksLeft_of_idle (hm : s.mode = .idle) : ticksLeft s = 0 := by simp only [ticksLeft, hm]

theorem ticksLeft_of_lead (hm : s.mode = .lead) :
    ticksLeft s = (s.params.tLead - s.t) + 8 * s.params.fbBytes * s.params.tBit + s.params.tLatch := by
  have hbits : 24 * s.params.ledCount = 8 * s.params.fbBytes := by
    rw [Params.fbBytes]
    omega
  simp only [ticksLeft, hm, hbits]

theorem ticksLeft_of_send (hm : s.mode = .send) :
    ticksLeft s = (bitsLeft s * s.params.tBit - s.t) + s.params.tLatch := by
  simp only [ticksLeft, hm, bitsLeft]

theorem ticksLeft_of_latch (hm : s.mode = .latch) : ticksLeft s = s.params.tLatch - s.t := by
  simp only [ticksLeft, hm]

theorem duration_eq (c : Params) : c.duration = c.tLead + 8 * c.fbBytes * c.tBit + c.tLatch := by
  have hbits : 24 * c.ledCount = 8 * c.fbBytes := by
    rw [Params.fbBytes]
    omega
  rw [Params.duration, hbits]

/-! What is left depends on the position alone. -/

@[simp] theorem ticksLeft_setEnv (s : State) (env : List Move) : ticksLeft (s.setEnv env) = ticksLeft s := rfl
@[simp] theorem ticksLeft_setSr (s : State) (v : Byte) : ticksLeft (s.setSr v) = ticksLeft s := rfl
@[simp] theorem ticksLeft_driveLine (s : State) : ticksLeft s.driveLine = ticksLeft s := rfl

theorem ticksLeft_setSeq_lead (s : State) (p : Nat) (k : Fin 8) (t : Nat) :
    ticksLeft (s.setSeq .lead p k t) = (s.params.tLead - t) + 8 * s.params.fbBytes * s.params.tBit + s.params.tLatch :=
  ticksLeft_of_lead rfl

theorem ticksLeft_setSeq_send (s : State) (p : Nat) (k : Fin 8) (t : Nat) :
    ticksLeft (s.setSeq .send p k t) =
      ((8 * (s.params.fbBytes - p) - k.val) * s.params.tBit - t) + s.params.tLatch :=
  ticksLeft_of_send rfl

theorem ticksLeft_setSeq_latch (s : State) (p : Nat) (k : Fin 8) (t : Nat) :
    ticksLeft (s.setSeq .latch p k t) = s.params.tLatch - t :=
  ticksLeft_of_latch rfl

theorem ticksLeft_atByte (s : State) (p : Nat) :
    ticksLeft (s.atByte p) = 8 * (s.params.fbBytes - p) * s.params.tBit + s.params.tLatch :=
  ticksLeft_setSeq_send s p 0 0

/-- Just after TRANSMIT is accepted all of the transmission is left. -/
theorem ticksLeft_started (s : State) : ticksLeft s.started = s.params.duration := by
  rw [duration_eq]
  obtain ⟨hlead, h⟩ | ⟨-, h⟩ := s.started_cases
  · rw [h, ticksLeft_atByte, hlead, Nat.zero_add]
    rfl
  · rw [h]
    exact ticksLeft_of_lead rfl

theorem ticksLeft_le_duration (s : State) : ticksLeft s ≤ s.params.duration := by
  rw [duration_eq]
  cases hm : s.mode with
  | idle => rw [ticksLeft_of_idle hm]; omega
  | lead => rw [ticksLeft_of_lead hm]; omega
  | send =>
    have hbits : bitsLeft s * s.params.tBit ≤ 8 * s.params.fbBytes * s.params.tBit :=
      Nat.mul_le_mul_right _ (by rw [bitsLeft]; omega)
    rw [ticksLeft_of_send hm]
    omega
  | latch => rw [ticksLeft_of_latch hm]; omega

variable (h : Inv s)
include h

/-- Outside IDLE there is a tick left. -/
theorem ticksLeft_pos (hm : s.mode ≠ .idle) : 0 < ticksLeft s := by
  have hlatch := Params.valid_latch h.params_valid
  cases hmode : s.mode with
  | idle => exact absurd hmode hm
  | lead => rw [ticksLeft_of_lead hmode]; omega
  | send => rw [ticksLeft_of_send hmode]; omega
  | latch =>
    have := h.latch_bound hmode
    rw [ticksLeft_of_latch hmode]
    omega

theorem ticksLeft_eq_zero_iff : ticksLeft s = 0 ↔ s.mode = .idle := by
  refine ⟨fun hzero => by_contra fun hm => ?_, ticksLeft_of_idle⟩
  exact (ticksLeft_pos h hm).ne' hzero

/-- With the last tick of a bit one bit fewer is left. -/
theorem bit_ticks_succ (hm : s.mode = .send) (ht : s.params.tBit ≤ s.t + 1) {bits : Nat} (hbits : bitsLeft s = bits + 1) :
    ticksLeft s = bits * s.params.tBit + 1 + s.params.tLatch := by
  have hlt := h.send_bound hm
  rw [ticksLeft_of_send hm, hbits, Nat.succ_mul]
  omega

/-- A busy tick uses up one of the ticks left. -/
theorem advance_ticksLeft {t : State} (hm : s.mode ≠ .idle) (hadvance : advance s = .next t) :
    ticksLeft t + 1 = ticksLeft s := by
  have hp := h.p_bound
  have hk := s.k.isLt
  obtain ⟨hidle, rfl⟩ | ⟨hmode, ht, rfl⟩ | ⟨hmode, ht, -, rfl⟩ | ⟨hmode, ht, rfl⟩ | ⟨hmode, ht, hk, rfl⟩ |
    ⟨hmode, ht, hk, -, rfl⟩ | ⟨hmode, ht, hk, hlast, rfl⟩ | ⟨hmode, ht, rfl⟩ | ⟨hmode, ht, rfl⟩ :=
    advance_next hadvance
  · -- in IDLE nothing changes
    exact absurd hidle hm
  · -- the lead-in counts
    rw [ticksLeft_of_lead hmode, ticksLeft_driveLine, ticksLeft_setSeq_lead]
    omega
  · -- the lead-in is over and byte `P` begins
    obtain ⟨hzero, -⟩ := h.gap_zero (.inl hmode)
    have hlt := h.lead_bound hmode
    rw [ticksLeft_of_lead hmode, ticksLeft_atByte, hzero, Nat.sub_zero]
    omega
  · -- a bit period counts
    have hbits : 0 < bitsLeft s := by rw [bitsLeft]; omega
    have hticks : s.params.tBit ≤ bitsLeft s * s.params.tBit := Nat.le_mul_of_pos_left _ hbits
    rw [ticksLeft_of_send hmode, ticksLeft_driveLine, ticksLeft_setSeq_send, ← bitsLeft]
    omega
  · -- the next bit begins
    have hsucc : (s.k + 1).val = s.k.val + 1 := Fin.val_add_one_of_lt' (by omega)
    have hbits : bitsLeft s = 8 * (s.params.fbBytes - s.p) - (s.k + 1).val + 1 := by rw [bitsLeft, hsucc]; omega
    rw [bit_ticks_succ h hmode ht hbits, ticksLeft_driveLine, ticksLeft_setSr, ticksLeft_setSeq_send]
    omega
  · -- the next byte begins
    have hbits : bitsLeft s = 8 * (s.params.fbBytes - (s.p + 1)) + 1 := by rw [bitsLeft]; omega
    rw [bit_ticks_succ h hmode ht hbits, ticksLeft_atByte]
    omega
  · -- the latch delay begins
    have hbits : bitsLeft s = 0 + 1 := by rw [bitsLeft]; omega
    rw [bit_ticks_succ h hmode ht hbits, ticksLeft_driveLine, ticksLeft_setSr, ticksLeft_setSeq_latch]
    omega
  · -- the latch delay counts
    rw [ticksLeft_of_latch hmode, ticksLeft_driveLine, ticksLeft_setSeq_latch]
    omega
  · -- the transmission is over
    have hlt := h.latch_bound hmode
    rw [ticksLeft_of_latch hmode, ticksLeft_of_idle (by simp)]
    omega

end TicksLeft

/-! ### A step under port moves -/

/-- A schedule that leaves the block to itself: nothing presented, or a word presented. -/
def PortMoves (env : List Move) : Prop := ∀ m ∈ env, isPortMove m = true

theorem PortMoves.head {env : List Move} (h : PortMoves env) : ∀ m ∈ env.head?, isPortMove m = true :=
  fun m hm => h m (List.mem_of_mem_head? hm)

theorem breaksObligation_of_portMove {m : Move} (h : isPortMove m = true) (s : State) :
    breaksObligation s m = false := by
  cases m with
  | wait | offer | present => rfl
  | assertRst | takeInterrupt | stallClock | writeFb => cases h

section PortRun

variable {s : State} (h : Inv s) (hport : PortMoves s.env)
include h hport

theorem step_answers_of_portMoves : ∃ t, step s = .next t :=
  step_answers h.params_valid h.p_bound fun m hm => breaksObligation_of_portMove (hport.head m hm) s

/-- A busy tick makes at most a move and uses up a tick of the transmission (R106). -/
theorem step_busy_progress (hm : s.mode ≠ .idle) :
    ∃ t, step s = .next t ∧ Inv t ∧ t.env <:+ s.env ∧ ticksLeft t + 1 = ticksLeft s := by
  obtain ⟨env, hsuffix, hquiet⟩ := step_of_portMove ⟨h.params_valid, hm⟩ hport.head
  obtain ⟨t, ht⟩ := step_answers_of_portMoves h hport
  have hadvance : advance (s.setEnv env) = .next t := hquiet ▸ ht
  exact ⟨t, ht, inv_step h ht, advance_env hadvance ▸ hsuffix, advance_ticksLeft (inv_setEnv h env) hm hadvance⟩

/-- A tick in IDLE makes the next move (R25). -/
theorem step_idle_progress (hm : s.mode = .idle) {m : Move} {rest : List Move} (henv : s.env = m :: rest) :
    ∃ t, step s = .next t ∧ Inv t ∧ t.env = rest := by
  obtain ⟨t, ht⟩ := step_answers_of_portMoves h hport
  have hmove : isPortMove m = true := hport m (by simp [henv])
  refine ⟨t, ht, inv_step h ht, ?_⟩
  cases m with
  | wait =>
    obtain ⟨-, hadvance⟩ := withValidParams_next (step_wait henv ▸ ht)
    exact advance_env hadvance
  | offer w => exact runWord_env (step_offer henv ▸ ht)
  | present w => exact runWord_env (step_present_of_idle hm henv ▸ ht)
  | assertRst | takeInterrupt | stallClock | writeFb => cases hmove

/-- A transmission runs on, whatever is presented, until its ticks are used up (R106). -/
theorem runTicks_of_le_ticksLeft {n : Nat} (hn : n ≤ ticksLeft s) :
    ∃ t, runTicks n s = .next t ∧ Inv t ∧ ticksLeft t + n = ticksLeft s := by
  induction n generalizing s with
  | zero => exact ⟨s, rfl, h, rfl⟩
  | succ n ih =>
    have hm : s.mode ≠ .idle := by
      rw [Ne, ← ticksLeft_eq_zero_iff h]
      omega
    obtain ⟨u, hu, hinv, hsuffix, hleft⟩ := step_busy_progress h hport hm
    obtain ⟨t, ht, hinv', hleft'⟩ := ih hinv (fun m hmem => hport m (hsuffix.subset hmem)) (by omega)
    exact ⟨t, (runTicks_succ_of_step hu n).trans ht, hinv', by omega⟩

end PortRun

/-! ### A whole run -/

/-- A bound on the ticks of a run: those left, and one and a transmission for each move to come. -/
def runBound (s : State) : Nat := ticksLeft s + s.env.length * (1 + s.params.duration)

/-- Until a run is over each tick lowers its bound. -/
theorem step_lowers_runBound {s : State} (h : Inv s) (hport : PortMoves s.env) (hover : ¬ s.over = true) :
    ∃ t, step s = .next t ∧ Inv t ∧ PortMoves t.env ∧ runBound t < runBound s := by
  by_cases hm : s.mode = .idle
  case pos =>
    obtain ⟨m, rest, henv⟩ : ∃ m rest, s.env = m :: rest :=
      List.exists_cons_of_ne_nil fun hnil => hover (by simp [State.over, State.cmdReady_of_idle hm, hnil])
    obtain ⟨t, ht, hinv, hrest⟩ := step_idle_progress h hport hm henv
    have hleft : ticksLeft t ≤ s.params.duration := step_params ht ▸ ticksLeft_le_duration t
    refine ⟨t, ht, hinv, fun m' hmem => hport m' (by simp [henv, hrest ▸ hmem]), ?_⟩
    rw [runBound, runBound, step_params ht, hrest, henv, ticksLeft_of_idle hm, List.length_cons, Nat.succ_mul]
    omega
  case neg =>
    obtain ⟨t, ht, hinv, hsuffix, hleft⟩ := step_busy_progress h hport hm
    have hmoves : t.env.length * (1 + s.params.duration) ≤ s.env.length * (1 + s.params.duration) :=
      Nat.mul_le_mul_right _ hsuffix.length_le
    refine ⟨t, ht, hinv, fun m hmem => hport m (hsuffix.subset hmem), ?_⟩
    rw [runBound, runBound, step_params ht]
    omega

theorem run_is_over {s : State} (h : Inv s) (hport : PortMoves s.env) :
    ∃ n t, n ≤ runBound s ∧ runTicks n s = .next t ∧ t.over = true := by
  induction hbound : runBound s using Nat.strong_induction_on generalizing s with
  | _ bound ih =>
    by_cases hover : s.over = true
    case pos => exact ⟨0, s, Nat.zero_le _, rfl, hover⟩
    case neg =>
      obtain ⟨u, hu, hinv, hportu, hlower⟩ := step_lowers_runBound h hport hover
      obtain ⟨n, t, hn, ht, hdone⟩ := ih (runBound u) (hbound ▸ hlower) hinv hportu rfl
      exact ⟨n + 1, t, by omega, (runTicks_succ_of_step hu n).trans ht, hdone⟩

end Sys2Proof.Machine
end

section
/-! The statements about the length of a run (R25, R106). -/

namespace Sys2Proof

open Sys2Proof.Machine

/-- Settles O19: each tick of a transmission uses up one of those left, and it is over exactly when none is. -/
theorem transmissionEndsInTime : Obligations.TransmissionEndsInTime := by
  refine ⟨fun s h hm hport => ⟨ticksLeft_le_duration s, ?ends, fun n hn => ?running⟩, fun s t h ht => ?total⟩
  case ends =>
    obtain ⟨t, ht, hinv, hleft⟩ := runTicks_of_le_ticksLeft h hport le_rfl
    have hidle : t.mode = .idle := (ticksLeft_eq_zero_iff hinv).1 (by omega)
    exact ⟨t, ht, hidle, excl_of_idle hinv hidle⟩
  case running =>
    obtain ⟨u, hu, hinv, hleft⟩ := runTicks_of_le_ticksLeft h hport hn.le
    have hbusy : u.mode ≠ .idle := by
      rw [Ne, ← ticksLeft_eq_zero_iff hinv]
      omega
    exact ⟨u, hu, hbusy, excl_of_busy hinv hbusy⟩
  case total =>
    obtain rfl : s.started = t := by
      have := (exec_of_ready h .transmit).symm.trans ht
      injection this
    exact ticksLeft_started s

/-- Settles O50: each tick of a run that is not over lowers the bound on what remains of it. -/
theorem everyRunIsOver : Obligations.EveryRunIsOver := fun _ => run_is_over

end Sys2Proof
end
